-- ==== Sys2Proof/Word.lean ====
section
/-! DEFINITION. The word types of the block and their plainest arithmetic (R9 of spec/00_scope.md, R80 of spec/30_encoding.md). -/

namespace Sys2Proof

/-- One stored byte: every data value the block stores or moves is one byte (R61). -/
abbrev Byte := BitVec 8

/-- One command word (R80). -/
abbrev Word := BitVec 32

/-- `popcount(v)`, the number of 1 bits of `v` (R9). -/
def popcount {n : Nat} (v : BitVec n) : Nat :=
  (List.range n).countP fun i => v.getLsbD i

end Sys2Proof
end

