-- ==== Sys2Proof/Config.lean ====
section
/-! DEFINITION. What is fixed for a launch: the parameters of R8 (spec/00_scope.md) with the spec's default values, and the
free values, constants without a body that no proof can see into. -/

namespace Sys2Proof.Config

/-- The parameters of R8, as plain data. State holds one such record, which no step changes (log 5), so that a statement about
every state is a statement about every value of every parameter, as R8 asks. -/
structure Params where
  /-- `P_POSMAP`: the ring bit 0..63 of each ring position 0..59 (R8, R11). -/
  posMap   : Vector (Fin 64) 60
  /-- `P_MARKERS`: the hour marker positions of animations 6 and 8 (R8, R171). -/
  markers  : List (Fin 60)
  /-- `P_MARK7_A`: animation 7's first marker pattern (R8, R172). -/
  mark7A   : List (Fin 60)
  /-- `P_MARK7_B`: animation 7's second marker pattern (R8, R172). -/
  mark7B   : List (Fin 60)
  /-- `P_BREATH`: the fill level 0..60 for each 8-bit tick count (R8, R164). -/
  breath   : Vector (Fin 61) 256
  /-- `P_TAPS`: the mask of the flicker generator's four taps (R8, R163). -/
  taps     : Byte
  /-- `P_LFSR_SEED`: the flicker generator's state after reset (R8). -/
  lfsrSeed : Byte
  /-- `P_BAR13_W`: the width of animation 13's minute bar (R8, R178). -/
  bar13W   : Nat
  /-- `P_DEFAULTS`: the compiled-in default of each config field (R8, R104). -/
  defaults : Vector Byte 10
  /-- `P_EE_BASE`: the EEPROM address of the first config slot (R8, R103). -/
  eeBase   : Nat
  /-- `P_EE_SIZE`: the EEPROM's size in bytes (R8). -/
  eeSize   : Nat
  deriving DecidableEq, Repr

/-- What the spec demands of the parameters: `P_POSMAP` is injective (R8), `P_TAPS` has exactly four bits set (R163), and
`P_EE_SIZE` is at least `P_EE_BASE + 24` (R8). -/
def Params.wf (p : Params) : Bool :=
  decide p.posMap.toList.Nodup && popcount p.taps == 4 && decide (p.eeBase + 24 ≤ p.eeSize)

/-- The default breathing curve of R164: a triangle 0..127..0 over one tick-counter period, halved and cut at 60. -/
def breathCurve (t : Nat) : Nat :=
  min ((if t < 128 then t else 255 - t) / 2) 60

/-- The default parameter values of R8, R104, R163, R164, R171 and R172. -/
def Params.default : Params where
  posMap   := Vector.ofFn fun p : Fin 60 => Fin.ofNat 64 p.val
  markers  := [0, 5, 10, 15, 20, 25, 30, 35, 40, 45, 50, 55]
  mark7A   := [0, 10, 20, 30, 40, 50]
  mark7B   := [5, 15, 25, 35, 45, 55]
  breath   := Vector.ofFn fun t : Fin 256 => Fin.ofNat 61 (breathCurve t.val)
  taps     := 0xB8
  lfsrSeed := 0x01
  bar13W   := 8
  defaults := #v[6, 30, 0, 0, 0, 1, 0, 1, 1, 0]
  eeBase   := 0
  eeSize   := 512

/-- What an EEPROM byte that nothing has written reads as: 0xFF, the erased part of R291 and R113 (PRESUMED, log 6). -/
def erasedByte : Byte := 0xFF

/-- `P_TICK_PERIOD` (R8): OPEN, with no default, and no rule depends on it (R301); no value of it can be proved (log 14). -/
opaque tickPeriod : Nat

/-- FREE VALUE: what the `n`-th EEPROM byte whose write a RESET cut holds afterwards, any value, a draw under no law
(R292, log 9). -/
opaque tornByte : Nat → Byte

end Sys2Proof.Config
end

