-- ==== Sys2Proof/Syntax.lean ====
section
/-! DEFINITION. The agents (R5 of spec/00_scope.md) and the commands, one constructor per row of spec/opcode_table.json
(R82 of spec/30_encoding.md). Operands are the unsigned fields of the word (R81); which values are legal is WellFormed's
matter, since an out-of-range operand is itself a command that faults (R85). -/

namespace Sys2Proof

/-- The three agents that issue command words (R5). ENV issues none; its RESET is an event, not a command (R290). -/
inductive Agent where
  | timer
  | edge
  | main
  deriving DecidableEq, Repr

/-- The commands of R82. Field names follow the table: `SEL` is 4 bits, `B2`, `B1`, `B0` are bytes. -/
inductive Instr where
  /-- `TICK` (R221). -/
  | tick
  /-- `BUF_WR cell, value` (R141). -/
  | bufWr (cell : BitVec 4) (value : Byte)
  /-- `BUF_RD cell` (R142). -/
  | bufRd (cell : BitVec 4)
  /-- `DIM_SET level` (R227). -/
  | dimSet (level : Byte)
  /-- `MUX_MASK` (R228). -/
  | muxMask
  /-- `MUX_UNMASK` (R229). -/
  | muxUnmask
  /-- `TICK_RD` (R230). -/
  | tickRd
  /-- `DEB_LOAD value` (R231). -/
  | debLoad (value : Byte)
  /-- `DEB_RD` (R232). -/
  | debRd
  /-- `ANIM_STEP index, hour, minute, second` (R160). -/
  | animStep (index : BitVec 4) (hour minute second : Byte)
  /-- `CFG_LOAD` (R105). -/
  | cfgLoad
  /-- `CFG_RD field` (R108). -/
  | cfgRd (field : BitVec 4)
  /-- `CFG_WR field, value` (R109). -/
  | cfgWr (field : BitVec 4) (value : Byte)
  /-- `CFG_COMMIT group` (R110). -/
  | cfgCommit (group : BitVec 4)
  /-- `OP` = 0xE, any other bits (R83). -/
  | reservedE (rest : BitVec 28)
  /-- `OP` = 0xF, any other bits (R83). -/
  | reservedF (rest : BitVec 28)
  deriving DecidableEq, Repr

end Sys2Proof
end

