-- ==== Sys2Proof/Machine/State.lean ====
section
/-! DEFINITION. Everything the block holds (R20, R40 of spec/10_state.md) as plain data, the reasons the model can stop, and the
state right after reset (R40, R290). -/

namespace Sys2Proof.Machine

/-- The fault codes of R260 (spec/60_exceptions.md). -/
inductive FaultCode where
  | illegalOpcode
  | wrongAgent
  | reservedField
  | operandRange
  | configNotLoaded
  deriving DecidableEq, Repr

/-- The number of a fault code, R260's first column. -/
def FaultCode.number : FaultCode → Nat
  | .illegalOpcode => 1
  | .wrongAgent => 2
  | .reservedField => 3
  | .operandRange => 4
  | .configNotLoaded => 5

/-- What the fault register records: the code, the issuing agent and the 32-bit word (R260, R261). -/
structure FaultRecord where
  code  : FaultCode
  agent : Agent
  word  : Word
  deriving DecidableEq, Repr

/-- The EEPROM's contents (R36): the bytes that differ from `Config.erasedByte`, addresses strictly rising. -/
abbrev Memory := List Host.Cell

/-- The position inside a multi-step command between two of its sub-steps (R38, R64), with the values the command computed or
sampled when it began. -/
inductive Progress where
  /-- `ANIM_STEP`: the next sub-step writes lane `next` (R161). -/
  | anim (next : Fin 8) (lanes : Vector Byte 8)
  /-- `CFG_LOAD`: the next sub-step reads and validates group `g` (R105). -/
  | loadValidate (g : Fin 6)
  /-- `CFG_LOAD`: the EEPROM bytes of group `g` still to be rewritten, first one next (R105, R107). -/
  | loadRewrite (g : Fin 6) (rest : List Host.Cell)
  /-- `CFG_LOAD`: every group done, `cfg_loaded` still to be set (R105; log 11). -/
  | loadFinish
  /-- `CFG_COMMIT`: the EEPROM bytes still to be written, first one next (R110). -/
  | commit (rest : List Host.Cell)
  deriving DecidableEq, Repr

/-- What the environment presents to the block, one entry at a time (R5, R6, R290; log 1). -/
inductive Event where
  /-- Agent `a` issues command word `w` (R6). -/
  | issue (a : Agent) (w : Word)
  /-- MAIN's multi-step command takes its next sub-step (R64). -/
  | proceed
  /-- ENV asserts `RESET` at this step boundary (R290). -/
  | reset
  /-- ENV asserts `RESET` while MAIN's next step runs, which is an EEPROM write sub-step (R292); `w` is the word MAIN is
  issuing where no multi-step command is in progress (log 10). -/
  | resetDuring (w : Word)
  deriving DecidableEq, Repr

/-- The whole state. The first group of fields is R20's record, field by field; `busy` is R38's sub-step position; the last
four are the model's own (logs 1, 5, 9, 12). -/
structure State where
  /-- `buf[0..11]`, display buffer (R21, R22). -/
  buf        : Vector Byte 12
  /-- `phase`, the phase the next multiplexer step drives (R23). -/
  phase      : Fin 12
  /-- `dim_cnt`, dimming counter (R24). -/
  dimCnt     : Fin 10
  /-- `dim_level`, dimming level, 0 brightest (R25). -/
  dimLevel   : Fin 10
  /-- `tick_cnt`, free-running tick counter (R26). -/
  tickCnt    : Byte
  /-- `deb_cnt`, saturating debounce counter (R27). -/
  debCnt     : Byte
  /-- `mux_masked`, multiplexer interrupt masked (R28). -/
  muxMasked  : Bool
  /-- `mux_pending`, one latched tick request (R29). -/
  muxPending : Bool
  /-- `out_data`, shared data lines (R30). -/
  outData    : Byte
  /-- `out_dsel`, digit-select lines (R30). -/
  outDsel    : BitVec 4
  /-- `out_lsel`, lane-select lines (R30). -/
  outLsel    : BitVec 8
  /-- `rdata[MAIN]`, result register (R31). -/
  rdataMain  : Byte
  /-- `rdata[EDGE]`, result register (R31). -/
  rdataEdge  : Byte
  /-- `lfsr`, flicker generator (R32). -/
  lfsr       : Byte
  /-- `last_idx`, redraw memo (R33). -/
  lastIdx    : Option (BitVec 4)
  /-- `last_min`, redraw memo (R33). -/
  lastMin    : Option Byte
  /-- `cfg[0..9]`, config shadow (R34). -/
  cfg        : Vector Byte 10
  /-- `cfg_loaded`, shadow valid (R35). -/
  cfgLoaded  : Bool
  /-- `ee`, persistent byte store (R36). -/
  ee         : Memory
  /-- `fault`, sticky fault register (R37). -/
  fault      : Option FaultRecord
  /-- Sub-step position of MAIN's multi-step command, none while MAIN is between commands (R38, R64). -/
  busy       : Option Progress
  /-- The agent whose command is being executed (R87's `agent`; log 12). -/
  issuer     : Agent
  /-- What the environment will present, oldest first (log 1). -/
  inputs     : List Event
  /-- How many free values have been drawn (log 9). -/
  draws      : Nat
  /-- The launch parameters of R8, changed by no step (log 5). -/
  params     : Config.Params
  deriving DecidableEq, Repr

/-- Why the model stops with a fault. The block's own faults are no stop: they are taken, as R261 says, in a next state. -/
inductive Fault where
  /-- Raised by an EEPROM access of `CFG_LOAD` or `CFG_COMMIT` at or past `P_EE_SIZE`, an address R60 says does not exist.
  Safe: with parameters that meet R8 no access raises it (log 7). -/
  | eepromAddress
  deriving DecidableEq, Repr

/-- Why the model refuses. -/
inductive Refusal where
  /-- Raised by an arm of `exec` whose instruction has no meaning yet. Safe. No arm of this model raises it. -/
  | notModelled (mnemonic : String)
  deriving DecidableEq, Repr

/-- The state right after reset (R40, R290), launched with the default parameters and an erased EEPROM (R291; log 6). -/
def State.reset : State where
  buf        := Vector.replicate 12 0
  phase      := 0
  dimCnt     := 0
  dimLevel   := 0
  tickCnt    := 0
  debCnt     := 0
  muxMasked  := true
  muxPending := false
  outData    := 0
  outDsel    := 0
  outLsel    := 0
  rdataMain  := 0
  rdataEdge  := 0
  lfsr       := Config.Params.default.lfsrSeed
  lastIdx    := none
  lastMin    := none
  -- DESIGN CHOICE (log 8), unsafe: R40 gives the shadow no value before the first CFG_LOAD
  cfg        := Vector.replicate 10 0
  cfgLoaded  := false
  ee         := []
  fault      := none
  busy       := none
  -- DESIGN CHOICE (log 12)
  issuer     := .main
  -- DESIGN CHOICE (log 1)
  inputs     := []
  -- DESIGN CHOICE (log 9)
  draws      := 0
  params     := Config.Params.default

end Sys2Proof.Machine
end

