-- ==== Sys2Proof/Machine/Ops.lean ====
section
/-! DEFINITION. The named operations over memory and registers: EEPROM bytes, buffer cells, counters, lines, result registers,
taking a fault (R261 of spec/60_exceptions.md) and RESET, the one return from it (R290 of spec/70_reset_and_hazards.md). -/

namespace Sys2Proof.Machine

/-! ### EEPROM bytes (R36, R60, R72) -/

/-- The byte at address `a`; an unlisted address reads as the erased byte (log 6). -/
def Memory.read (m : Memory) (a : Nat) : Byte :=
  match m with
  | [] => Config.erasedByte
  | (b, v) :: rest => if a = b then v else Memory.read rest a

/-- Put one cell in front of a memory, unless its byte is what an unlisted address reads as. -/
def Memory.cons (a : Nat) (v : Byte) (m : Memory) : Memory :=
  if v = Config.erasedByte then m else (a, v) :: m

/-- Write byte `v` at address `a`, keeping the canonical form. -/
def Memory.write (m : Memory) (a : Nat) (v : Byte) : Memory :=
  match m with
  | [] => Memory.cons a v []
  | (b, u) :: rest =>
    if a < b then Memory.cons a v ((b, u) :: rest)
    else if a = b then Memory.cons a v rest
    else (b, u) :: Memory.write rest a v

/-- The canonical form: addresses strictly rising, and no byte equal to what an unlisted address reads as. -/
def Memory.wf : Memory → Bool
  | [] => true
  | (a, v) :: rest => v != Config.erasedByte && rest.all (fun c => decide (a < c.1)) && Memory.wf rest

/-- Every listed address lies below `size` (R60: the EEPROM has bytes 0 to `P_EE_SIZE` - 1). -/
def Memory.within (m : Memory) (size : Nat) : Bool :=
  m.all fun c => decide (c.1 < size)

/-- `MemRead(a, 1)` of R10: none where the EEPROM has no such byte (R60). -/
def State.readByte (s : State) (a : Nat) : Option Byte :=
  if a < s.params.eeSize then some (s.ee.read a) else none

/-- `MemWrite(a, 1, v)` of R10, where the EEPROM has the byte. -/
def State.putByte (s : State) (a : Nat) (v : Byte) : State :=
  { s with ee := s.ee.write a v }

/-! ### Display buffer, counters and lines (R21 to R30) -/

/-- `buf[c] <- v` (R141). -/
def State.writeCell (s : State) (c : Fin 12) (v : Byte) : State :=
  { s with buf := s.buf.set c v }

/-- `dim_level <- l` (R227). -/
def State.setDimLevel (s : State) (l : Fin 10) : State :=
  { s with dimLevel := l }

/-- `mux_masked <- b` (R228, R229). -/
def State.setMasked (s : State) (b : Bool) : State :=
  { s with muxMasked := b }

/-- `mux_pending <- b` (R221, R229). -/
def State.setPending (s : State) (b : Bool) : State :=
  { s with muxPending := b }

/-- `deb_cnt <- v` (R231). -/
def State.loadDebounce (s : State) (v : Byte) : State :=
  { s with debCnt := v }

/-- The three line groups at once (R30). -/
def State.setLines (s : State) (data : Byte) (dsel : BitVec 4) (lsel : BitVec 8) : State :=
  { s with outData := data, outDsel := dsel, outLsel := lsel }

/-! ### Result registers and the redraw memo (R31, R33) -/

/-- `rdata[issuer] <- v` (R31). TIMER has no result register and no read command (R86). -/
def State.putResult (s : State) (v : Byte) : State :=
  match s.issuer with
  | .main => { s with rdataMain := v }
  | .edge => { s with rdataEdge := v }
  | .timer => s

/-- `lfsr <- r`, `last_idx <- i`, `last_min <- m`: the registers an animation's compute step writes (R160, R161). -/
def State.noteAnimation (s : State) (r : Byte) (i : BitVec 4) (m : Byte) : State :=
  { s with lfsr := r, lastIdx := some i, lastMin := some m }

/-! ### Config shadow and sub-step position (R34, R35, R38) -/

/-- `cfg[f] <- v` (R109). -/
def State.putField (s : State) (f : Fin 10) (v : Byte) : State :=
  { s with cfg := s.cfg.set f v }

/-- `cfg[f] <- v` for each pair of the list, in order (R105). -/
def State.putFields (s : State) (fvs : List (Fin 10 × Byte)) : State :=
  { s with cfg := fvs.foldl (fun c fv => c.set fv.1 fv.2) s.cfg }

/-- `cfg_loaded <- true` (R105). -/
def State.markLoaded (s : State) : State :=
  { s with cfgLoaded := true }

/-- MAIN's position inside a multi-step command, none when it has finished (R64). -/
def State.setBusy (s : State) (p : Option Progress) : State :=
  { s with busy := p }

/-- The environment's entries left over (log 1). -/
def State.setInputs (s : State) (es : List Event) : State :=
  { s with inputs := es }

/-- The agent whose command is executed from here on (log 12). -/
def State.setIssuer (s : State) (a : Agent) : State :=
  { s with issuer := a }

/-! ### Taking a fault, and RESET -/

/-- Take a block fault: the state is exactly as before, but the fault register holds the code, the issuing agent and the
word (R260, R261). The block is halted from here on (Machine/Agents.lean). -/
def State.takeFault (s : State) (code : FaultCode) (w : Word) : State :=
  { s with fault := some { code := code, agent := s.issuer, word := w } }

/-- `RESET`: every piece of state but the EEPROM takes its reset value, a multi-step command in progress is abandoned and
`fault` becomes NONE (R290, R291). The launch parameters stay, and so do the environment's own entries and the count of free
values drawn. The only way out of the faulted state (R261). -/
def State.afterReset (s : State) : State :=
  { State.reset with lfsr := s.params.lfsrSeed, ee := s.ee, inputs := s.inputs, draws := s.draws, params := s.params }

/-- The byte at `a` takes the next free value: its write was cut by a RESET (R292, log 9). -/
def State.tearByte (s : State) (a : Nat) : State :=
  { s with ee := s.ee.write a (Config.tornByte s.draws), draws := s.draws + 1 }

end Sys2Proof.Machine
end

