-- ==== Sys2Proof/Machine/Flags.lean ====
section
/-! DEFINITION. The block has no flags (R39 of spec/10_state.md). What stands here are the one-bit conditions and the check
byte its rules compute: the parity of R9, the drive condition of R223, and the checksum of R102. -/

namespace Sys2Proof.Machine

/-- `parity(v)`: the XOR of all bits of `v` (R9). -/
def parity (v : Byte) : Bool :=
  (List.range 8).foldl (fun acc k => acc ^^ v.getLsbD k) false

/-- A multiplexer step drives the lines when `dim_cnt >= dim_level` (R223). -/
def drives (s : State) : Bool :=
  decide (s.dimLevel ≤ s.dimCnt)

/-- `onehot(k)` on `n` lines (R9, R220). -/
def onehot (n k : Nat) : BitVec n :=
  1#n <<< k

/-- `cks`: the sum of a group's field bytes modulo 256 (R102). -/
def cks (vals : List Byte) : Byte :=
  BitVec.ofNat 8 (vals.map BitVec.toNat).sum

end Sys2Proof.Machine
end

