-- ==== Sys2Proof/WellFormed.lean ====
section
/-! DEFINITION. Which commands are well formed: the legal operand ranges of R85 (spec/30_encoding.md) and of the field table
R100 (spec/40_config_store.md). A word of a reserved opcode spells no command (R83), so no `reservedE` or `reservedF` is well
formed. -/

namespace Sys2Proof

/-- `v` is a legal value of config field `f` (the "Legal range" column of R100); no field is numbered 10 or more. -/
def legalFieldValue (f v : Nat) : Bool :=
  match f with
  | 0 => decide (v ≤ 23)
  | 1 => decide (v ≤ 59)
  | 2 => decide (v ≤ 1)
  | 3 => decide (v ≤ 1)
  | 4 => decide (v ≤ 1)
  | 5 => decide (v ≤ 15)
  | 6 => decide (v ≤ 9)
  | 7 => decide (1 ≤ v) && decide (v ≤ 31)
  | 8 => decide (1 ≤ v) && decide (v ≤ 12)
  | 9 => decide (v ≤ 99)
  | _ => false

/-- Every operand of the command is in its legal range (R85). -/
def Instr.wellFormed : Instr → Bool
  | .tick => true
  | .bufWr c _ => decide (c.toNat ≤ 11)
  | .bufRd c => decide (c.toNat ≤ 11)
  | .dimSet l => decide (l.toNat ≤ 9)
  | .muxMask => true
  | .muxUnmask => true
  | .tickRd => true
  | .debLoad _ => true
  | .debRd => true
  | .animStep _ h m s => decide (h.toNat ≤ 23) && decide (m.toNat ≤ 59) && decide (s.toNat ≤ 59)
  | .cfgLoad => true
  | .cfgRd f => decide (f.toNat ≤ 9)
  | .cfgWr f v => legalFieldValue f.toNat v.toNat
  | .cfgCommit g => decide (g.toNat ≤ 5)
  | .reservedE _ => false
  | .reservedF _ => false

end Sys2Proof
end

