-- ==== Sys2Proof/Decode.lean ====
section
/-! DEFINITION. The command word (R80, R81, R82 of spec/30_encoding.md): its fields, the decoder, total on every word and
rejecting by name, the encoder (R88), and the match and mask table of R82. Which agent issues the word, and operand ranges,
are checked when the command is executed (R86, R85), in the order of R87. -/

namespace Sys2Proof

/-- `OP`, bits [31:28] (R80). -/
def opField (w : Word) : BitVec 4 := w.extractLsb' 28 4

/-- `SEL`, bits [27:24] (R80). -/
def selField (w : Word) : BitVec 4 := w.extractLsb' 24 4

/-- `B2`, bits [23:16] (R80). -/
def b2Field (w : Word) : Byte := w.extractLsb' 16 8

/-- `B1`, bits [15:8] (R80). -/
def b1Field (w : Word) : Byte := w.extractLsb' 8 8

/-- `B0`, bits [7:0] (R80). -/
def b0Field (w : Word) : Byte := w.extractLsb' 0 8

/-- What decoding a word gives: a command, or the rejection of R84 with the opcode whose must-be-zero field is not zero. -/
inductive Decoded where
  | ok (i : Instr)
  | reservedField (op : BitVec 4)
  deriving DecidableEq, Repr

/-- Accept the command if the fields it does not use are zero, reject by name otherwise (R81, R84). -/
def Decoded.ifZero (op : BitVec 4) (unusedZero : Bool) (i : Instr) : Decoded :=
  if unusedZero then .ok i else .reservedField op

/-- Decode a command word by the opcode map of R82. Total: every word gives a command or the rejection of R84 (R87). -/
def decode (w : Word) : Decoded :=
  let op := opField w
  let sel := selField w
  let b2 := b2Field w
  let b1 := b1Field w
  let b0 := b0Field w
  match op.toNat with
  | 0  => .ifZero op (sel == 0 && b2 == 0 && b1 == 0 && b0 == 0) .tick
  | 1  => .ifZero op (b2 == 0 && b1 == 0) (.bufWr sel b0)
  | 2  => .ifZero op (b2 == 0 && b1 == 0 && b0 == 0) (.bufRd sel)
  | 3  => .ifZero op (sel == 0 && b2 == 0 && b1 == 0) (.dimSet b0)
  | 4  => .ifZero op (sel == 0 && b2 == 0 && b1 == 0 && b0 == 0) .muxMask
  | 5  => .ifZero op (sel == 0 && b2 == 0 && b1 == 0 && b0 == 0) .muxUnmask
  | 6  => .ifZero op (sel == 0 && b2 == 0 && b1 == 0 && b0 == 0) .tickRd
  | 7  => .ifZero op (sel == 0 && b2 == 0 && b1 == 0) (.debLoad b0)
  | 8  => .ifZero op (sel == 0 && b2 == 0 && b1 == 0 && b0 == 0) .debRd
  | 9  => .ok (.animStep sel b2 b1 b0)
  | 10 => .ifZero op (sel == 0 && b2 == 0 && b1 == 0 && b0 == 0) .cfgLoad
  | 11 => .ifZero op (b2 == 0 && b1 == 0 && b0 == 0) (.cfgRd sel)
  | 12 => .ifZero op (b2 == 0 && b1 == 0) (.cfgWr sel b0)
  | 13 => .ifZero op (b2 == 0 && b1 == 0 && b0 == 0) (.cfgCommit sel)
  | 14 => .ok (.reservedE (w.extractLsb' 0 28))
  | _  => .ok (.reservedF (w.extractLsb' 0 28))

/-- The opcode of a command (R82). -/
def Instr.opcode : Instr → BitVec 4
  | .tick => 0x0
  | .bufWr _ _ => 0x1
  | .bufRd _ => 0x2
  | .dimSet _ => 0x3
  | .muxMask => 0x4
  | .muxUnmask => 0x5
  | .tickRd => 0x6
  | .debLoad _ => 0x7
  | .debRd => 0x8
  | .animStep _ _ _ _ => 0x9
  | .cfgLoad => 0xA
  | .cfgRd _ => 0xB
  | .cfgWr _ _ => 0xC
  | .cfgCommit _ => 0xD
  | .reservedE _ => 0xE
  | .reservedF _ => 0xF

/-- Lay the five fields of R80 side by side, `OP` uppermost. -/
def packWord (op sel : BitVec 4) (b2 b1 b0 : Byte) : Word :=
  op ++ sel ++ b2 ++ b1 ++ b0

/-- The word of a command (R82, R88). -/
def encode : Instr → Word
  | .tick => packWord 0x0 0 0 0 0
  | .bufWr c v => packWord 0x1 c 0 0 v
  | .bufRd c => packWord 0x2 c 0 0 0
  | .dimSet l => packWord 0x3 0 0 0 l
  | .muxMask => packWord 0x4 0 0 0 0
  | .muxUnmask => packWord 0x5 0 0 0 0
  | .tickRd => packWord 0x6 0 0 0 0
  | .debLoad v => packWord 0x7 0 0 0 v
  | .debRd => packWord 0x8 0 0 0 0
  | .animStep i h m s => packWord 0x9 i h m s
  | .cfgLoad => packWord 0xA 0 0 0 0
  | .cfgRd f => packWord 0xB f 0 0 0
  | .cfgWr f v => packWord 0xC f 0 0 v
  | .cfgCommit g => packWord 0xD g 0 0 0
  | .reservedE r => 0xE#4 ++ r
  | .reservedF r => 0xF#4 ++ r

/-- One row of the match and mask table: a word belongs to the row when `(word & mask) == match` (R82). -/
structure Row where
  pattern : Word
  mask    : Word
  deriving DecidableEq, Repr

/-- The word matches the row (R82). -/
def Row.accepts (r : Row) (w : Word) : Bool :=
  (w &&& r.mask) == r.pattern

/-- The match and mask table of R82 with the two reserved rows of spec/opcode_table.json, in opcode order. -/
def opcodeRows : List Row :=
  [⟨0x00000000, 0xFFFFFFFF⟩, ⟨0x10000000, 0xF0FFFF00⟩, ⟨0x20000000, 0xF0FFFFFF⟩, ⟨0x30000000, 0xFFFFFF00⟩] ++
  [⟨0x40000000, 0xFFFFFFFF⟩, ⟨0x50000000, 0xFFFFFFFF⟩, ⟨0x60000000, 0xFFFFFFFF⟩, ⟨0x70000000, 0xFFFFFF00⟩] ++
  [⟨0x80000000, 0xFFFFFFFF⟩, ⟨0x90000000, 0xF0000000⟩, ⟨0xA0000000, 0xFFFFFFFF⟩, ⟨0xB0000000, 0xF0FFFFFF⟩] ++
  [⟨0xC0000000, 0xF0FFFF00⟩, ⟨0xD0000000, 0xF0FFFFFF⟩, ⟨0xE0000000, 0xF0000000⟩, ⟨0xF0000000, 0xF0000000⟩]

/-- The instruction the decoder reads from a row's word: the low `nbits` bits of `w`, every bit above them 0. -/
def decodeTableWord (nbits w : Nat) : Option Instr :=
  match decode (BitVec.ofNat 32 (w % 2 ^ nbits)) with
  | .ok i => some i
  | .reservedField _ => none

end Sys2Proof
end

