-- ==== Sys2Proof/Machine/Operands.lean ====
section
/-! DEFINITION. Operand forms (R81, R85 of spec/30_encoding.md), agent permissions (R86), and the checks every command passes
before it has any effect, in the order of R87 and R262. -/

namespace Sys2Proof.Machine

/-! ### Operand forms: every operand is an unsigned field (R81) -/

/-- `SEL` as a buffer cell 0..11 (R82). -/
def cellOf (sel : BitVec 4) : Fin 12 := Fin.ofNat 12 sel.toNat

/-- `SEL` as a config field 0..9 (R82). -/
def fieldOf (sel : BitVec 4) : Fin 10 := Fin.ofNat 10 sel.toNat

/-- `SEL` as a config group 0..5 (R82). -/
def groupOf (sel : BitVec 4) : Fin 6 := Fin.ofNat 6 sel.toNat

/-- `B0` as a dimming level 0..9 (R82). -/
def levelOf (b0 : Byte) : Fin 10 := Fin.ofNat 10 b0.toNat

/-! ### Checks -/

/-- The legal range of each config field, lowest and highest value (R100). -/
def fieldRange (f : Fin 10) : Nat × Nat :=
  match f with
  | 0 => (0, 23)
  | 1 => (0, 59)
  | 2 => (0, 1)
  | 3 => (0, 1)
  | 4 => (0, 1)
  | 5 => (0, 15)
  | 6 => (0, 9)
  | 7 => (1, 31)
  | 8 => (1, 12)
  | 9 => (0, 99)

/-- No operand is out of range: the negation of R85's list. -/
def operandsInRange : Instr → Bool
  | .bufWr c _ => decide (c.toNat < 12)
  | .bufRd c => decide (c.toNat < 12)
  | .dimSet l => decide (l.toNat < 10)
  | .animStep _ h m s => decide (h.toNat < 24) && decide (m.toNat < 60) && decide (s.toNat < 60)
  | .cfgRd f => decide (f.toNat < 10)
  | .cfgWr f v => decide (f.toNat < 10) && decide ((fieldRange (fieldOf f)).1 ≤ v.toNat) &&
      decide (v.toNat ≤ (fieldRange (fieldOf f)).2)
  | .cfgCommit g => decide (g.toNat < 6)
  | .tick => true
  | .muxMask => true
  | .muxUnmask => true
  | .tickRd => true
  | .debLoad _ => true
  | .debRd => true
  | .cfgLoad => true
  | .reservedE _ => true
  | .reservedF _ => true

/-- The "Agents" column of R82 (R86): TIMER issues `TICK`; EDGE and MAIN issue `TICK_RD`, `DEB_LOAD`, `DEB_RD`; MAIN alone
the rest; nobody a reserved opcode. -/
def agentsOf (op : BitVec 4) : List Agent :=
  match op.toNat with
  | 0 => [.timer]
  | 6 => [.main, .edge]
  | 7 => [.main, .edge]
  | 8 => [.main, .edge]
  | 14 => []
  | 15 => []
  | _ => [.main]

/-- Agent `a` may issue opcode `op` (R86). -/
def mayIssue (op : BitVec 4) (a : Agent) : Bool :=
  (agentsOf op).contains a

/-- The command faults while no configuration is loaded (R35, R87). -/
def needsConfig : Instr → Bool
  | .cfgRd _ => true
  | .cfgWr _ _ => true
  | .cfgCommit _ => true
  | .tick => false
  | .bufWr _ _ => false
  | .bufRd _ => false
  | .dimSet _ => false
  | .muxMask => false
  | .muxUnmask => false
  | .tickRd => false
  | .debLoad _ => false
  | .debRd => false
  | .animStep _ _ _ _ => false
  | .cfgLoad => false
  | .reservedE _ => false
  | .reservedF _ => false

/-- `OP` is 0xE or 0xF (R83). -/
def isReserved (op : BitVec 4) : Bool :=
  op == 0xE || op == 0xF

/-- The fault a command takes, the first of R262's order that applies, or none. `RESERVED_FIELD` is a matter of the word and
stands in Machine/Agents.lean; no decoded command has it. -/
def admission (i : Instr) (s : State) : Option FaultCode :=
  if isReserved i.opcode then some .illegalOpcode
  else if !mayIssue i.opcode s.issuer then some .wrongAgent
  else if !operandsInRange i then some .operandRange
  else if needsConfig i && !s.cfgLoaded then some .configNotLoaded
  else none

/-- Run a command's effect if it passes every check, otherwise take its fault, before anything is written (R261). The word
recorded is the command's own (log 13). -/
def checked (i : Instr) (s : State) (effect : State → Host.Outcome State Fault Refusal) : Host.Outcome State Fault Refusal :=
  match admission i s with
  | some code => .next (s.takeFault code (encode i))
  | none => effect s

end Sys2Proof.Machine
end

