-- ==== Sys2Proof/Machine/Animation.lean ====
section
/-! DEFINITION. The LED ring animation engine (spec/42_animation.md): the sixteen animations, `ANIM_STEP`'s compute step and its
lane sub-steps. -/

namespace Sys2Proof.Machine

/-! ### Lit sets and lanes (R11 of spec/00_scope.md, R162) -/

/-- A set of lit ring positions, a subset of `U = {0..59}` (R11, R162). -/
abbrev LitSet := Fin 60 → Bool

/-- `{q}` (R11). -/
def single (q : Nat) : LitSet := fun p => p.val == q

/-- `upto(k)`: the positions below `k` (R162). -/
def upto (k : Nat) : LitSet := fun p => decide (p.val < k)

/-- `from(k)`: the positions at or above `k` (R162). -/
def fromPos (k : Nat) : LitSet := fun p => decide (k ≤ p.val)

/-- A set given by its elements (R8's marker parameters). -/
def ofList (qs : List (Fin 60)) : LitSet := fun p => qs.contains p

/-- Union of two sets (R11). -/
def LitSet.union (P Q : LitSet) : LitSet := fun p => P p || Q p

/-- `hp(h)`: the hour position (R162). -/
def hourPos (h : Nat) : Nat := (h % 12) * 5

/-- `ring(P)`: the 64-bit value whose bit `P_POSMAP(p)` is 1 for each `p` in `P`, every other bit 0 (R11). -/
def ring (p : Config.Params) (P : LitSet) : BitVec 64 :=
  (List.finRange 60).foldl (fun acc q => if P q then acc ||| onehot 64 p.posMap[q].val else acc) 0

/-- Lane `j` of a ring: bits `8j+7 .. 8j` (R11). -/
def laneOf (r : BitVec 64) (j : Nat) : Byte :=
  r.extractLsb' (8 * j) 8

/-- `lanes(P)`: the eight lanes of a ring, lane 0 first (R11). -/
def lanesOf (r : BitVec 64) : Vector Byte 8 :=
  #v[laneOf r 0, laneOf r 1, laneOf r 2, laneOf r 3, laneOf r 4, laneOf r 5, laneOf r 6, laneOf r 7]

/-- `lfsr_step(r)`: shift left, increment iff the taps' parity is 1, reduce modulo 60 (R163). -/
def lfsrStep (taps r : Byte) : Byte :=
  ((r <<< 1) + (if parity (r &&& taps) then 1 else 0)) % 60

/-! ### The sixteen animations (R165 to R180) -/

/-- Animation 0, all off (R165). -/
def anim0 : LitSet := fun _ => false

/-- Animation 1, progressive fill: `{s}` (R166). -/
def anim1 (s : Nat) : LitSet := single s

/-- Animation 2, progressive fill inverted: `U \ {s}` (R167). -/
def anim2 (s : Nat) : LitSet := fun p => !single s p

/-- Animation 3, cumulative fill (R168). -/
def anim3 (s : Nat) : LitSet := upto s

/-- Animation 4, cumulative empty (R169). -/
def anim4 (s : Nat) : LitSet := fromPos s

/-- Animation 5, fill on odd minutes, empty on even ones (R170). -/
def anim5 (m s : Nat) : LitSet := if m % 2 = 1 then upto s else fromPos s

/-- Animation 6, the running position plus the hour markers (R171). -/
def anim6 (p : Config.Params) (s : Nat) : LitSet := LitSet.union (single s) (ofList p.markers)

/-- Animation 7, markers alternating between two patterns every 5 seconds (R172). -/
def anim7 (p : Config.Params) (s : Nat) : LitSet :=
  LitSet.union (single s) (ofList (if (s / 5) % 2 = 0 then p.mark7A else p.mark7B))

/-- Animation 8, the markers still ahead of the running position (R173). -/
def anim8 (p : Config.Params) (s : Nat) : LitSet :=
  LitSet.union (single s) fun q => ofList p.markers q && decide (s < q.val)

/-- Animation 9, breathing: the level of the tick count, filled from 0 on even minutes and from 59 down on odd ones (R174). -/
def anim9 (p : Config.Params) (m : Nat) (t : Byte) : LitSet :=
  if m % 2 = 0 then upto p.breath[t.toNat].val else fromPos (60 - p.breath[t.toNat].val)

/-- Animation 10, hour position and minute bar (R175). Whether it is drawn at all is `animSkips`. -/
def anim10 (h m : Nat) : LitSet := LitSet.union (single (hourPos h)) (upto m)

/-- Animation 11, hour on even seconds, minute bar on odd ones (R176). -/
def anim11 (h m s : Nat) : LitSet := if s % 2 = 0 then single (hourPos h) else upto m

/-- Animation 12, hour on even seconds, the three positions around the minute on odd ones (R177). -/
def anim12 (h m s : Nat) : LitSet :=
  if s % 2 = 0 then single (hourPos h)
  else LitSet.union (single ((m + 59) % 60)) (LitSet.union (single m) (single ((m + 1) % 60)))

/-- Animation 13, hour on even seconds, on odd ones the `P_BAR13_W` positions from the five-minute group on (R178). -/
def anim13 (p : Config.Params) (h m s : Nat) : LitSet :=
  if s % 2 = 0 then single (hourPos h)
  else fun q => (List.range p.bar13W).any fun k => (5 * (m / 5) + k) % 60 == q.val

/-- Animation 14, flicker: the generator's output in place of the second (R179). -/
def anim14 (p : Config.Params) (r : Byte) : LitSet × Byte :=
  (single (lfsrStep p.taps r).toNat, lfsrStep p.taps r)

/-- Animation 15, animation 1 on even seconds and animation 14 on odd ones (R180). -/
def anim15 (p : Config.Params) (s : Nat) (r : Byte) : LitSet × Byte :=
  if s % 2 = 0 then (anim1 s, r) else anim14 p r

/-- `A_i(h, m, s, t, r)`: the lit set and the next generator state, which all but 14 and 15 leave as it is (R160). -/
def animate (p : Config.Params) (i : BitVec 4) (h m s : Nat) (t r : Byte) : LitSet × Byte :=
  match i.toNat with
  | 0 => (anim0, r)
  | 1 => (anim1 s, r)
  | 2 => (anim2 s, r)
  | 3 => (anim3 s, r)
  | 4 => (anim4 s, r)
  | 5 => (anim5 m s, r)
  | 6 => (anim6 p s, r)
  | 7 => (anim7 p s, r)
  | 8 => (anim8 p s, r)
  | 9 => (anim9 p m t, r)
  | 10 => (anim10 h m, r)
  | 11 => (anim11 h m s, r)
  | 12 => (anim12 h m s, r)
  | 13 => (anim13 p h m s, r)
  | 14 => anim14 p r
  | _ => anim15 p s r

/-! ### The command and its sub-steps (R160, R161) -/

/-- `skip` of R160: animation 10 was the previous one, at the same minute. -/
def animSkips (i : BitVec 4) (m : Byte) (s : State) : Bool :=
  i == 10 && s.lastIdx == some 10 && s.lastMin == some m

/-- The compute step of `ANIM_STEP`, one atomic step; unless skipped, eight lane sub-steps follow (R160, R161). -/
def animCompute (i : BitVec 4) (h m sec : Byte) (s : State) : State :=
  if animSkips i m s then s.noteAnimation s.lfsr i m
  else
    let a := animate s.params i h.toNat m.toNat sec.toNat s.tickCnt s.lfsr
    (s.noteAnimation a.2 i m).setBusy (some (.anim 0 (lanesOf (ring s.params a.1))))

/-- `ANIM_STEP i, h, m, s`: the command's first step (R160). -/
def execAnimStep (i : BitVec 4) (h m sec : Byte) (s : State) : Host.Outcome State Fault Refusal :=
  checked (.animStep i h m sec) s fun s => .next (animCompute i h m sec s)

/-- The buffer cell of lane `j` (R22, R140). -/
def laneCell (j : Fin 8) : Fin 12 := ⟨4 + j.val, by omega⟩

/-- One lane sub-step: write lane `j`, and go on to the next lane or finish after lane 7 (R161). -/
def laneStep (j : Fin 8) (lanes : Vector Byte 8) (s : State) : State :=
  (s.writeCell (laneCell j) lanes[j]).setBusy (if j = 7 then none else some (.anim (j + 1) lanes))

end Sys2Proof.Machine
end

