-- ==== Sys2Proof/Machine/Buffer.lean ====
section
/-! DEFINITION. The display buffer's commands (spec/41_display_buffer.md). -/

namespace Sys2Proof.Machine

/-- `BUF_WR c, v`: `buf[c] <- v` (R141). -/
def execBufWr (c : BitVec 4) (v : Byte) (s : State) : Host.Outcome State Fault Refusal :=
  checked (.bufWr c v) s fun s => .next (s.writeCell (cellOf c) v)

/-- `BUF_RD c`: `rdata[MAIN] <- buf[c]` (R142). -/
def execBufRd (c : BitVec 4) (s : State) : Host.Outcome State Fault Refusal :=
  checked (.bufRd c) s fun s => .next (s.putResult s.buf[cellOf c])

end Sys2Proof.Machine
end

