-- ==== Sys2Proof/Machine/ConfigStore.lean ====
section
/-! DEFINITION. The configuration store (spec/40_config_store.md): groups, EEPROM layout, the four config commands and the
sub-steps of `CFG_LOAD` and `CFG_COMMIT`. -/

namespace Sys2Proof.Machine

/-! ### Groups and layout (R101, R103) -/

/-- `F(g, 0), F(g, 1), ...`: the fields of group `g`, in order (R101). -/
def groupFields (g : Fin 6) : List (Fin 10) :=
  match g with
  | 0 => [0, 1, 2]
  | 1 => [3]
  | 2 => [4]
  | 3 => [5]
  | 4 => [6]
  | 5 => [7, 8, 9]

/-- `base(g) = P_EE_BASE + 4*g` (R103). -/
def slotBase (p : Config.Params) (g : Fin 6) : Nat := p.eeBase + 4 * g.val

/-- The address of group `g`'s checksum byte, the last of its slot the block uses: `base(g) + n_g` (R103). -/
def checksumAddr (p : Config.Params) (g : Fin 6) : Nat := slotBase p g + (groupFields g).length

/-- The field bytes of group `g` as the EEPROM holds them (R103, R105). -/
def storedFields (s : State) (g : Fin 6) : List Byte :=
  (List.range (groupFields g).length).map fun k => s.ee.read (slotBase s.params g + k)

/-- The checksum byte of group `g` as the EEPROM holds it (R103, R105). -/
def storedChecksum (s : State) (g : Fin 6) : Byte :=
  s.ee.read (checksumAddr s.params g)

/-- Group `g` is valid: its stored checksum byte is `cks` of its stored field bytes (R102). -/
def groupValid (s : State) (g : Fin 6) : Bool :=
  cks (storedFields s g) == storedChecksum s g

/-- The compiled-in defaults of group `g`'s fields (R104, R105). -/
def defaultFields (p : Config.Params) (g : Fin 6) : List Byte :=
  (groupFields g).map fun f => p.defaults[f]

/-- The shadow's bytes of group `g` (R110). -/
def shadowFields (s : State) (g : Fin 6) : List Byte :=
  (groupFields g).map fun f => s.cfg[f]

/-- The EEPROM bytes that hold field bytes `vals` and their checksum in group `g`'s slot, in ascending order, the checksum
last (R103, R107, R110). -/
def slotImage (p : Config.Params) (g : Fin 6) (vals : List Byte) : List Host.Cell :=
  (vals ++ [cks vals]).zipIdx.map fun vk => (slotBase p g + vk.2, vk.1)

/-- `cfg[F(g, i)] <- vals[i]` for every field of group `g` (R105). -/
def storeGroup (g : Fin 6) (vals : List Byte) (s : State) : State :=
  s.putFields ((groupFields g).zip vals)

/-! ### Sub-steps -/

/-- One EEPROM byte write: a fault of the model where the EEPROM has no such byte (R60, log 7). -/
def writeThen (a : Nat) (v : Byte) (s : State) (after : State → State) : Host.Outcome State Fault Refusal :=
  if a < s.params.eeSize then .next (after (s.putByte a v)) else .fault .eepromAddress

/-- Where `CFG_LOAD` goes on after group `g` (R105). -/
def afterGroup (g : Fin 6) : Progress :=
  if g = 5 then .loadFinish else .loadValidate (g + 1)

/-- `CFG_LOAD`'s read-and-validate sub-step of group `g`: a valid group is loaded as stored, an invalid one takes its defaults
and is to be rewritten (R105, R106, R107). -/
def validateStep (g : Fin 6) (s : State) : Host.Outcome State Fault Refusal :=
  if checksumAddr s.params g < s.params.eeSize then
    .next (
      if groupValid s g then (storeGroup g (storedFields s g) s).setBusy (some (afterGroup g))
      else (storeGroup g (defaultFields s.params g) s).setBusy
        (some (.loadRewrite g (slotImage s.params g (defaultFields s.params g)))))
  else .fault .eepromAddress

/-- `CFG_LOAD`'s rewrite sub-step: the next byte of group `g`'s slot (R105, R107). -/
def rewriteStep (g : Fin 6) (rest : List Host.Cell) (s : State) : Host.Outcome State Fault Refusal :=
  match rest with
  | [] => .next (s.setBusy (some (afterGroup g)))
  | (a, v) :: more =>
    writeThen a v s fun s => s.setBusy (some (if more.isEmpty then afterGroup g else .loadRewrite g more))

/-- `CFG_LOAD`'s completion: `cfg_loaded <- true` (R105; log 11). -/
def finishStep (s : State) : State :=
  s.markLoaded.setBusy none

/-- `CFG_COMMIT`'s sub-step: the next byte (R110). -/
def commitStep (rest : List Host.Cell) (s : State) : Host.Outcome State Fault Refusal :=
  match rest with
  | [] => .next (s.setBusy none)
  | (a, v) :: more =>
    writeThen a v s fun s => s.setBusy (if more.isEmpty then none else some (.commit more))

/-! ### Commands -/

/-- `CFG_LOAD`: its first sub-step, group 0 (R105). -/
def execCfgLoad (s : State) : Host.Outcome State Fault Refusal :=
  checked .cfgLoad s fun s => validateStep 0 s

/-- `CFG_RD f`: `rdata[MAIN] <- cfg[f]` (R108). -/
def execCfgRd (f : BitVec 4) (s : State) : Host.Outcome State Fault Refusal :=
  checked (.cfgRd f) s fun s => .next (s.putResult s.cfg[fieldOf f])

/-- `CFG_WR f, v`: `cfg[f] <- v`, the EEPROM unchanged (R109). -/
def execCfgWr (f : BitVec 4) (v : Byte) (s : State) : Host.Outcome State Fault Refusal :=
  checked (.cfgWr f v) s fun s => .next (s.putField (fieldOf f) v)

/-- `CFG_COMMIT g`: sample the group's shadow fields and their checksum, and write the first byte (R110). -/
def execCfgCommit (g : BitVec 4) (s : State) : Host.Outcome State Fault Refusal :=
  checked (.cfgCommit g) s fun s => commitStep (slotImage s.params (groupOf g) (shadowFields s (groupOf g))) s

end Sys2Proof.Machine
end

