-- ==== Sys2Proof/Machine/Multiplexer.lean ====
section
/-! DEFINITION. The interrupt-driven multiplexer (spec/43_multiplexer.md): `MuxStep` and the seven commands about it. -/

namespace Sys2Proof.Machine

/-- The line part of `MuxStep`: drive the cell of the current phase, or hold every line at 0 (R220, R222). -/
def driveLines (s : State) : State :=
  if drives s then
    s.setLines s.buf[s.phase]
      (if s.phase.val < 4 then onehot 4 s.phase.val else 0)
      (if 4 ≤ s.phase.val then onehot 8 (s.phase.val - 4) else 0)
  else s.setLines 0 0 0

/-- The phase part of `MuxStep`: advance by one; at the wrap 11 to 0 the dimming counter advances modulo 10 (R222, R234). -/
def advancePhase (s : State) : State :=
  if s.phase = 11 then { s with phase := 0, dimCnt := if s.dimCnt = 9 then 0 else s.dimCnt + 1 }
  else { s with phase := s.phase + 1 }

/-- `tick_cnt <- u8(tick_cnt + 1)` (R225). -/
def countTick (s : State) : State :=
  { s with tickCnt := s.tickCnt + 1 }

/-- Decrement `deb_cnt` unless it is 0 (R226). -/
def decayDebounce (s : State) : State :=
  { s with debCnt := if s.debCnt = 0 then 0 else s.debCnt - 1 }

/-- `MuxStep`, one atomic step in the order R222 writes it: drive, then advance. -/
def muxStep (s : State) : State :=
  decayDebounce (countTick (advancePhase (driveLines s)))

/-- `TICK`: run the multiplexer step, or latch one request while it is masked (R221). -/
def execTick (s : State) : Host.Outcome State Fault Refusal :=
  checked .tick s fun s => .next (if s.muxMasked then s.setPending true else muxStep s)

/-- `DIM_SET l`: `dim_level <- l` (R227). -/
def execDimSet (l : Byte) (s : State) : Host.Outcome State Fault Refusal :=
  checked (.dimSet l) s fun s => .next (s.setDimLevel (levelOf l))

/-- `MUX_MASK`: `mux_masked <- true` (R228). -/
def execMuxMask (s : State) : Host.Outcome State Fault Refusal :=
  checked .muxMask s fun s => .next (s.setMasked true)

/-- `MUX_UNMASK`: clear the mask, and run the one latched step if there is one (R229). -/
def execMuxUnmask (s : State) : Host.Outcome State Fault Refusal :=
  checked .muxUnmask s fun s =>
    .next (if s.muxPending then muxStep ((s.setMasked false).setPending false) else s.setMasked false)

/-- `TICK_RD`: `rdata[issuer] <- tick_cnt` (R230). -/
def execTickRd (s : State) : Host.Outcome State Fault Refusal :=
  checked .tickRd s fun s => .next (s.putResult s.tickCnt)

/-- `DEB_LOAD v`: `deb_cnt <- v` (R231). -/
def execDebLoad (v : Byte) (s : State) : Host.Outcome State Fault Refusal :=
  checked (.debLoad v) s fun s => .next (s.loadDebounce v)

/-- `DEB_RD`: `rdata[issuer] <- deb_cnt` (R232). -/
def execDebRd (s : State) : Host.Outcome State Fault Refusal :=
  checked .debRd s fun s => .next (s.putResult s.debCnt)

end Sys2Proof.Machine
end

