-- ==== Sys2Proof/Machine/Reserved.lean ====
section
/-! DEFINITION. The reserved opcodes (R83 of spec/30_encoding.md): from any agent they raise `ILLEGAL_OPCODE`, and nothing else
happens. -/

namespace Sys2Proof.Machine

/-- `OP` = 0xE: `Fault(ILLEGAL_OPCODE)`, taken by the checks before any effect (R83, R261, R262). -/
def execReservedE (rest : BitVec 28) (s : State) : Host.Outcome State Fault Refusal :=
  checked (.reservedE rest) s fun s => .next s

/-- `OP` = 0xF: `Fault(ILLEGAL_OPCODE)`, taken by the checks before any effect (R83, R261, R262). -/
def execReservedF (rest : BitVec 28) (s : State) : Host.Outcome State Fault Refusal :=
  checked (.reservedF rest) s fun s => .next s

end Sys2Proof.Machine
end

