-- ==== Sys2Proof/Machine/Dispatch.lean ====
section
/-! DEFINITION. One arm per command of R82 (spec/30_encoding.md): what the command does when agent `s.issuer` issues it. -/

namespace Sys2Proof.Machine

def exec (i : Instr) (s : State) : Host.Outcome State Fault Refusal :=
  match i with
  | .tick => Sys2Proof.Machine.execTick s
  | .bufWr c v => Sys2Proof.Machine.execBufWr c v s
  | .bufRd c => Sys2Proof.Machine.execBufRd c s
  | .dimSet l => Sys2Proof.Machine.execDimSet l s
  | .muxMask => Sys2Proof.Machine.execMuxMask s
  | .muxUnmask => Sys2Proof.Machine.execMuxUnmask s
  | .tickRd => Sys2Proof.Machine.execTickRd s
  | .debLoad v => Sys2Proof.Machine.execDebLoad v s
  | .debRd => Sys2Proof.Machine.execDebRd s
  | .animStep a h m sec => Sys2Proof.Machine.execAnimStep a h m sec s
  | .cfgLoad => Sys2Proof.Machine.execCfgLoad s
  | .cfgRd f => Sys2Proof.Machine.execCfgRd f s
  | .cfgWr f v => Sys2Proof.Machine.execCfgWr f v s
  | .cfgCommit g => Sys2Proof.Machine.execCfgCommit g s
  | .reservedE r => Sys2Proof.Machine.execReservedE r s
  | .reservedF r => Sys2Proof.Machine.execReservedF r s

end Sys2Proof.Machine
end

