-- ==== Sys2Proof/Machine/Agents.lean ====
section
/-! DEFINITION. What the agents and ENV do to the block: issuing a command word (R87 of spec/30_encoding.md), taking a sub-step
(R64 of spec/20_memory.md), and RESET, at a boundary or during an EEPROM write (R290, R292 of spec/70_reset_and_hazards.md). -/

namespace Sys2Proof.Machine

/-- Agent `a` issues word `w`: decode it, and run the command it spells or take the fault of R84, which yields to
`WRONG_AGENT` (R87, R262). -/
def issueWord (a : Agent) (w : Word) (s : State) : Host.Outcome State Fault Refusal :=
  match decode w with
  | .ok i => exec i (s.setIssuer a)
  | .reservedField op =>
    .next ((s.setIssuer a).takeFault (if mayIssue op a then .reservedField else .wrongAgent) w)

/-- The next sub-step of MAIN's multi-step command (R64). -/
def subStep (p : Progress) (s : State) : Host.Outcome State Fault Refusal :=
  match p with
  | .anim j lanes => .next (laneStep j lanes s)
  | .loadValidate g => validateStep g s
  | .loadRewrite g rest => rewriteStep g rest s
  | .loadFinish => .next (finishStep s)
  | .commit rest => commitStep rest s

/-- The EEPROM address MAIN's next step writes, if that step is an EEPROM write: a pending rewrite or commit byte, or the first
byte of a `CFG_COMMIT` that MAIN is issuing as word `w` (R64, R292). -/
def nextWrite (w : Word) (s : State) : Option Nat :=
  match s.busy with
  | some (.loadRewrite _ ((a, _) :: _)) => some a
  | some (.commit ((a, _) :: _)) => some a
  | some _ => none
  | none =>
    match decode w with
    | .ok (.cfgCommit g) =>
      if admission (.cfgCommit g) (s.setIssuer .main) = none then some (slotBase s.params (groupOf g)) else none
    | _ => none

/-- RESET while MAIN's next step runs: where that step is an EEPROM write, its byte holds a free value; then RESET as always.
A halted block has no step to cut (R261, R292; log 10). -/
def resetDuringStep (w : Word) (s : State) : State :=
  match s.fault, nextWrite w s with
  | none, some a => if a < s.params.eeSize then (s.tearByte a).afterReset else s.afterReset
  | _, _ => s.afterReset

/-- One entry of the environment's list, with the entries after it. After a fault no agent has a step, and only RESET acts
(R261, log 4). A MAIN word that finds MAIN inside a multi-step command waits: MAIN's step is the next sub-step (R64, log 2). -/
def handleEvent (e : Event) (rest : List Event) (s : State) : Host.Outcome State Fault Refusal :=
  match e with
  | .reset => .next (s.setInputs rest).afterReset
  | .resetDuring w => .next (resetDuringStep w (s.setInputs rest))
  | .issue a w =>
    if s.fault.isSome then .next (s.setInputs rest)
    else
      match a, s.busy with
      | .main, some p => subStep p s
      | _, _ => issueWord a w (s.setInputs rest)
  | .proceed =>
    if s.fault.isSome then .next (s.setInputs rest)
    else
      match s.busy with
      | some p => subStep p (s.setInputs rest)
      | none => .next (s.setInputs rest)

/-- The agent that a word placed by the host is issued by: TIMER for `TICK`, MAIN for any other opcode (R86, log 1). -/
def placedIssuer (w : Word) : Agent :=
  if opField w = 0 then .timer else .main

end Sys2Proof.Machine
end

