-- ==== Sys2Proof/Machine/Step.lean ====
section
/-! DEFINITION. One step of the block: the environment's next entry acts (R6 of spec/00_scope.md). -/

namespace Sys2Proof.Machine

/-- One step. With no entry left nothing acts and the block stays as it is (log 3). -/
def step (s : State) : Host.Outcome State Fault Refusal :=
  match s.inputs with
  | [] => .next s
  | e :: rest => handleEvent e rest s

/-- `s` with the word of the low `nbits` bits of `w` as the command the very next step runs: presented first, by an agent that
may issue it, to a block that is not halted and whose MAIN is between commands (log 1). -/
def State.withFetchWord (s : State) (nbits w : Nat) : State :=
  { s with
    inputs := .issue (placedIssuer (BitVec.ofNat 32 (w % 2 ^ nbits))) (BitVec.ofNat 32 (w % 2 ^ nbits)) :: s.inputs
    busy := none
    fault := none }

end Sys2Proof.Machine
end

