-- ==== Sys2Proof/Machine/Assembler.lean ====
section
/-! DEFINITION. The assembler syntax R88 and the pseudo-commands R89 (spec/30_encoding.md). No step uses them: they turn text
into the command words the agents issue. What R88 leaves open (case, white space, digits) is log 15. -/

namespace Sys2Proof.Machine

/-- The value of a decimal or hexadecimal digit, either case. -/
def digitValue (c : Char) : Option Nat :=
  if '0' ≤ c ∧ c ≤ '9' then some (c.toNat - '0'.toNat)
  else if 'a' ≤ c ∧ c ≤ 'f' then some (c.toNat - 'a'.toNat + 10)
  else if 'A' ≤ c ∧ c ≤ 'F' then some (c.toNat - 'A'.toNat + 10)
  else none

/-- Digits of one base, most significant first, onto the value read so far. -/
def readDigits (base acc : Nat) (cs : List Char) : Option Nat :=
  match cs with
  | [] => some acc
  | c :: rest =>
    match digitValue c with
    | some d => if d < base then readDigits base (acc * base + d) rest else none
    | none => none

/-- An operand: decimal, or hexadecimal with `0x` (R88). -/
def readNumber (cs : List Char) : Option Nat :=
  match cs with
  | [] => none
  | '0' :: 'x' :: [] => none
  | '0' :: 'x' :: rest => readDigits 16 0 rest
  | c :: rest => readDigits 10 0 (c :: rest)

/-- Leading and trailing blanks taken off. -/
def trimBlanks (cs : List Char) : List Char :=
  ((cs.dropWhile (· == ' ')).reverse.dropWhile (· == ' ')).reverse

/-- Cut at every `sep`. -/
def cutAt (sep : Char) (cs : List Char) : List (List Char) :=
  match cs with
  | [] => [[]]
  | c :: rest =>
    match cutAt sep rest with
    | [] => [[]]
    | part :: parts => if c = sep then [] :: part :: parts else (c :: part) :: parts

/-- The comma-separated operands; none for an empty text (R88). -/
def readOperands (cs : List Char) : Option (List Nat) :=
  if trimBlanks cs = [] then some [] else (cutAt ',' cs).mapM fun part => readNumber (trimBlanks part)

/-- A number as a field of `n` bits, if it fits. -/
def asField (n v : Nat) : Option (BitVec n) :=
  if v < 2 ^ n then some (BitVec.ofNat n v) else none

/-- A command from its mnemonic and operands, the operands in the order of R88. -/
def buildCommand (mnemonic : List Char) (operands : List Nat) : Option Instr :=
  match operands with
  | [] =>
    if mnemonic = "TICK".toList then some .tick
    else if mnemonic = "MUX_MASK".toList then some .muxMask
    else if mnemonic = "MUX_UNMASK".toList then some .muxUnmask
    else if mnemonic = "TICK_RD".toList then some .tickRd
    else if mnemonic = "DEB_RD".toList then some .debRd
    else if mnemonic = "CFG_LOAD".toList then some .cfgLoad
    else none
  | [x] =>
    if mnemonic = "BUF_RD".toList then (asField 4 x).map .bufRd
    else if mnemonic = "DIM_SET".toList then (asField 8 x).map .dimSet
    else if mnemonic = "DEB_LOAD".toList then (asField 8 x).map .debLoad
    else if mnemonic = "CFG_RD".toList then (asField 4 x).map .cfgRd
    else if mnemonic = "CFG_COMMIT".toList then (asField 4 x).map .cfgCommit
    else none
  | [x, v] =>
    match asField 4 x, asField 8 v with
    | some x, some v =>
      if mnemonic = "BUF_WR".toList then some (.bufWr x v)
      else if mnemonic = "CFG_WR".toList then some (.cfgWr x v)
      else none
    | _, _ => none
  | [i, h, m, s] =>
    match asField 4 i, asField 8 h, asField 8 m, asField 8 s with
    | some i, some h, some m, some s => if mnemonic = "ANIM_STEP".toList then some (.animStep i h m s) else none
    | _, _, _, _ => none
  | _ => none

/-- `MNEMONIC operands` (R88). -/
def readCommand (cs : List Char) : Option Instr :=
  let cs := trimBlanks cs
  (readOperands (cs.dropWhile (· != ' '))).bind (buildCommand (cs.takeWhile (· != ' ')))

/-- The agent named before the colon (R88). -/
def readAgent (cs : List Char) : Option Agent :=
  if trimBlanks cs = "TIMER".toList then some .timer
  else if trimBlanks cs = "EDGE".toList then some .edge
  else if trimBlanks cs = "MAIN".toList then some .main
  else none

/-- A line `AGENT: MNEMONIC operands`, MAIN where no agent is named, as the issuing agent and its command word (R88). -/
def assembleLine (line : String) : Option (Agent × Word) :=
  match cutAt ':' line.toList with
  | [body] => (readCommand body).map fun i => (.main, encode i)
  | [agent, body] => (readAgent agent).bind fun a => (readCommand body).map fun i => (a, encode i)
  | _ => none

/-- The pseudo-commands of R89. -/
inductive Pseudo where
  | blankDigits
  | clearRing
  | crit (body : List Instr)
  | cfgSet (group field : BitVec 4) (value : Byte)
  deriving DecidableEq, Repr

/-- The commands a pseudo-command stands for, in order, all issued by MAIN (R89). -/
def Pseudo.expand : Pseudo → List Instr
  | .blankDigits => [.bufWr 0 0, .bufWr 1 0, .bufWr 2 0, .bufWr 3 0]
  | .clearRing => [.bufWr 4 0, .bufWr 5 0, .bufWr 6 0, .bufWr 7 0, .bufWr 8 0, .bufWr 9 0, .bufWr 10 0, .bufWr 11 0]
  | .crit body => .muxMask :: body ++ [.muxUnmask]
  | .cfgSet g f v => [.cfgWr f v, .cfgCommit g]

end Sys2Proof.Machine
end

