-- ==== Sys2Proof/Safety.lean ====
section
/-! DEFINITION. The terms statements use about runs: the halted block and a run that ends well (R261 of spec/60_exceptions.md),
the invariant every step keeps, and what is counted over multiplexer steps (R224, R234 of spec/43_multiplexer.md). -/

namespace Sys2Proof.Machine

/-- The block is halted by a fault (R261). -/
def State.halted (s : State) : Bool := s.fault.isSome

/-- `k` steps from `s` end in `t`, and the block is not halted there: a faulted state is never a successful end (R261). -/
def RunsWellTo (k : Nat) (s t : State) : Prop :=
  Host.Core.run Sys2Proof.core k s = .next t ∧ t.halted = false

/-- MAIN's pending EEPROM writes stay inside the 24 bytes of the slots (R36, R103), and a rewrite or commit in progress has a
byte left to write (R64). -/
def Progress.wf (p : Config.Params) : Progress → Bool
  | .anim _ _ => true
  | .loadValidate _ => true
  | .loadRewrite _ rest => !rest.isEmpty && rest.all fun c => decide (p.eeBase ≤ c.1) && decide (c.1 < p.eeBase + 24)
  | .loadFinish => true
  | .commit rest => !rest.isEmpty && rest.all fun c => decide (p.eeBase ≤ c.1) && decide (c.1 < p.eeBase + 24)

/-- How many select lines are on, `out_dsel` and `out_lsel` taken together (R30). -/
def selectCount (s : State) : Nat := popcount s.outDsel + popcount s.outLsel

/-- The invariant every step keeps: the parameters meet R8; the EEPROM is in canonical form and inside its size (R36, R60); at
most one select line is on, and the data lines are 0 when none is (R30, R222); a tick request is latched only under the mask
(R28, R29); the generator holds its seed or a value below 60 (R32); the redraw memo is whole and its minute legal (R33); and
MAIN's pending EEPROM writes lie in the slots (R103, R111). -/
structure State.Inv (s : State) : Prop where
  params      : s.params.wf = true
  canonical   : s.ee.wf = true
  within      : s.ee.within s.params.eeSize = true
  oneSelect   : selectCount s ≤ 1
  blankIsDark : selectCount s = 0 → s.outData = 0
  latch       : s.muxPending = true → s.muxMasked = true
  generator   : s.lfsr = s.params.lfsrSeed ∨ s.lfsr.toNat < 60
  memo        : s.lastIdx.isSome = s.lastMin.isSome
  memoMinute  : ∀ m, s.lastMin = some m → m.toNat < 60
  pending     : ∀ p, s.busy = some p → Progress.wf s.params p = true

/-- The next entry is a RESET, at a boundary or during MAIN's step (R290, R292). -/
def State.resets (s : State) : Bool :=
  match s.inputs with
  | .reset :: _ => true
  | .resetDuring _ :: _ => true
  | _ => false

/-- The next step runs `MuxStep`: TIMER's `TICK` while unmasked, or MAIN's `MUX_UNMASK` with a request latched (R221, R229). -/
def State.runsMuxStep (s : State) : Bool :=
  !s.halted &&
  match s.inputs with
  | .issue .timer w :: _ => w == 0x00000000 && !s.muxMasked
  | .issue .main w :: _ => w == 0x50000000 && s.muxPending && s.busy == none
  | _ => false

/-- How many of the next `n` multiplexer steps drive a line (R224). -/
def drivenSteps (n : Nat) (s : State) : Nat :=
  (List.range n).countP fun k => drives (muxStep^[k] s)

/-- MAIN's multi-step command runs its next `n` sub-steps with nothing between them (R64). -/
def alone (n : Nat) : List Event := List.replicate n .proceed

end Sys2Proof.Machine
end

