-- ==== Sys2Proof/Certificates/Slice0/Obligations.lean ====
section
/-! DEFINITION. The statements, each formalising a rule of spec/ or resting on the sections it cites; OBLIGATIONS.json lists them. -/

namespace Sys2Proof.Terms

open Sys2Proof.Machine

/-- The "Agents" column of R82, as the statements read it: agent `a` may issue opcode number `op`. -/
def permitted (a : Agent) (op : Nat) : Prop :=
  match a with
  | .timer => op = 0
  | .edge => 6 ≤ op ∧ op ≤ 8
  | .main => 1 ≤ op ∧ op ≤ 13

/-- R88's formula: `OP<<28 | SEL<<24 | B2<<16 | B1<<8 | B0`. -/
def spelled (op sel : BitVec 4) (b2 b1 b0 : Byte) : Word :=
  (op.setWidth 32 <<< 28) ||| (sel.setWidth 32 <<< 24) ||| (b2.setWidth 32 <<< 16) ||| (b1.setWidth 32 <<< 8) |||
    b0.setWidth 32

/-- R222's `MuxStep` written out as one update: the registers it writes, and nothing else. -/
def muxStepped (s : State) : State :=
  { s with
    outData := if s.dimCnt.val ≥ s.dimLevel.val then s.buf[s.phase] else 0
    outDsel := if s.dimCnt.val ≥ s.dimLevel.val ∧ s.phase.val < 4 then 1#4 <<< s.phase.val else 0
    outLsel := if s.dimCnt.val ≥ s.dimLevel.val ∧ s.phase.val ≥ 4 then 1#8 <<< (s.phase.val - 4) else 0
    phase := if h : s.phase.val = 11 then 0 else ⟨s.phase.val + 1, by omega⟩
    dimCnt := if s.phase.val = 11 then (if h : s.dimCnt.val = 9 then 0 else ⟨s.dimCnt.val + 1, by omega⟩) else s.dimCnt
    tickCnt := BitVec.ofNat 8 (s.tickCnt.toNat + 1)
    debCnt := BitVec.ofNat 8 (s.debCnt.toNat - 1) }

/-- Every register of `t` has its value in R40's reset column, `lfsr` the seed of `s`'s launch; MAIN is between commands; the
launch parameters are those of `s`. Nothing is said of the EEPROM, nor of the shadow, which R40 leaves unspecified. -/
structure HasResetValues (s t : State) : Prop where
  buf        : ∀ c : Fin 12, t.buf[c] = 0
  phase      : t.phase = 0
  dimCnt     : t.dimCnt = 0
  dimLevel   : t.dimLevel = 0
  tickCnt    : t.tickCnt = 0
  debCnt     : t.debCnt = 0
  muxMasked  : t.muxMasked = true
  muxPending : t.muxPending = false
  outData    : t.outData = 0
  outDsel    : t.outDsel = 0
  outLsel    : t.outLsel = 0
  rdataMain  : t.rdataMain = 0
  rdataEdge  : t.rdataEdge = 0
  lfsr       : t.lfsr = s.params.lfsrSeed
  lastIdx    : t.lastIdx = none
  lastMin    : t.lastMin = none
  cfgLoaded  : t.cfgLoaded = false
  fault      : t.fault = none
  busy       : t.busy = none
  params     : t.params = s.params

/-- MAIN's next step in `s`, issuing `w` if it is between commands, is the EEPROM write sub-step of address `a`: a later byte of
a commit, a rewrite, or a commit's first byte (R64, R292). -/
def writesNext (s : State) (w : Word) (a : Nat) : Prop :=
  (∃ v more, s.busy = some (.commit ((a, v) :: more))) ∨
  (∃ g v more, s.busy = some (.loadRewrite g ((a, v) :: more))) ∨
  (s.busy = none ∧ s.cfgLoaded = true ∧ ∃ g : BitVec 4, g.toNat < 6 ∧ w = encode (.cfgCommit g) ∧
    a = s.params.eeBase + 4 * g.toNat)

/-- The fields of each group in order, R101's table: `F(g, 0)`, `F(g, 1)`, `F(g, 2)`. -/
def tableFields (g : Fin 6) : List (Fin 10) :=
  match g with
  | 0 => [0, 1, 2]
  | 1 => [3]
  | 2 => [4]
  | 3 => [5]
  | 4 => [6]
  | 5 => [7, 8, 9]

/-- A slot that starts at `b` and holds these field bytes, address by address: the fields in ascending order, the checksum,
their sum modulo 256, after them (R102, R103). A group has one field or three (R101). -/
def slotCells (b : Nat) (vals : List Byte) : List Host.Cell :=
  match vals with
  | [v] => [(b, v), (b + 1, v)]
  | [v, w, x] => [(b, v), (b + 1, w), (b + 2, x), (b + 3, v + w + x)]
  | _ => []

/-- The slot of group `g` with the shadow's bytes in it, as `CFG_COMMIT` writes it (R110). -/
def shadowSlot (s : State) (g : Fin 6) : List Host.Cell :=
  slotCells (s.params.eeBase + 4 * g.val) ((tableFields g).map fun f => s.cfg[f])

/-- The slot of group `g` with the defaults in it, as `CFG_LOAD` rewrites it (R105, R107). -/
def defaultSlot (s : State) (g : Fin 6) : List Host.Cell :=
  slotCells (s.params.eeBase + 4 * g.val) ((tableFields g).map fun f => s.params.defaults[f])

/-- The slot of group `g` as the EEPROM's field bytes make it (R103, R105). -/
def storedSlot (s : State) (g : Fin 6) : List Host.Cell :=
  slotCells (s.params.eeBase + 4 * g.val)
    ((List.range (tableFields g).length).map fun i => s.ee.read (s.params.eeBase + 4 * g.val + i))

/-- The EEPROM holds these cells. -/
abbrev holds (s : State) (cells : List Host.Cell) : Prop :=
  ∀ c ∈ cells, s.ee.read c.1 = c.2

/-- Group `g` is valid: its checksum byte is the sum of its field bytes (R102). -/
abbrev validSlot (s : State) (g : Fin 6) : Prop :=
  holds s (storedSlot s g)

/-- Every EEPROM byte outside these addresses reads in `t` as in `s`. -/
def sameOutside (s t : State) (addresses : List Nat) : Prop :=
  ∀ a, a ∉ addresses → t.ee.read a = s.ee.read a

/-- Where `CFG_LOAD` goes on after group `g` (R105). -/
def afterSlot (g : Fin 6) : Progress :=
  if h : g.val < 5 then .loadValidate ⟨g.val + 1, by omega⟩ else .loadFinish

/-- MAIN takes a step in `s`: the block is not halted, and the next entry is MAIN's turn or MAIN's word. -/
def mainsStep (s : State) : Prop :=
  s.fault = none ∧ ((∃ rest, s.inputs = .proceed :: rest) ∨ ∃ w rest, s.inputs = .issue .main w :: rest)

/-- How many lanes' bits are on, over all eight lanes of the buffer (R9's popcount). -/
def ringCount (s : State) : Nat :=
  ((List.range 8).map fun j => popcount (s.buf.toList.getD (4 + j) 0)).sum

end Sys2Proof.Terms

open Sys2Proof Sys2Proof.Machine Sys2Proof.Terms

/-! ### Encoding (spec/30_encoding.md) -/

/-- R80 to R84: the word of a command decodes to that command, whatever its operands; and so for the constructors the model
gives the reserved opcodes (log 16). -/
def Obligations.DecodeOfEncodeIsTheCommand : Prop :=
  ∀ i : Instr, decode (encode i) = .ok i

/-- R87: a word has one meaning: if it decodes to a command, it is that command's word. -/
def Obligations.EncodeOfDecodeIsTheWord : Prop :=
  ∀ (w : Word) (i : Instr), decode w = .ok i → encode i = w

/-- R84: the words rejected for a must-be-zero field are exactly those no row of R82's match and mask table accepts. -/
def Obligations.MustBeZeroRejectionIsNoRowMatching : Prop :=
  ∀ w : Word, decode w = .reservedField (opField w) ↔ ∀ r ∈ opcodeRows, r.accepts w = false

/-- R82: no word matches two rows of the match and mask table. -/
def Obligations.NoWordMatchesTwoRows : Prop :=
  opcodeRows.Pairwise fun r q => ∀ w : Word, ¬ (r.accepts w = true ∧ q.accepts w = true)

/-- R82, R84, R88: words written in the spec decode to the commands it says they spell; a reserved word, which spells no
command, decodes to the constructor the model gives its opcode (log 16); a word with a nonzero unused field is rejected. -/
def Obligations.DecodeReadsTheSpecsWords : Prop :=
  decode 0x00000000 = .ok .tick ∧ decode 0x11000006 = .ok (.bufWr 1 0x06) ∧ decode 0x2B000000 = .ok (.bufRd 11) ∧
  decode 0x30000009 = .ok (.dimSet 9) ∧ decode 0x50000000 = .ok .muxUnmask ∧ decode 0x70000003 = .ok (.debLoad 3) ∧
  decode 0x910C220A = .ok (.animStep 1 12 34 10) ∧ decode 0xC5000007 = .ok (.cfgWr 5 7) ∧
  decode 0xD3000000 = .ok (.cfgCommit 3) ∧ decode 0xE0000000 = .ok (.reservedE 0) ∧
  decode 0x10000100 = .reservedField 1

/-- R88: the word of every command is `OP<<28 | SEL<<24 | B2<<16 | B1<<8 | B0` with the operands in R82's places. -/
def Obligations.CommandWordIsTheShiftedOrOfItsFields : Prop :=
  encode .tick = spelled 0x0 0 0 0 0 ∧
  (∀ c v, encode (.bufWr c v) = spelled 0x1 c 0 0 v) ∧
  (∀ c, encode (.bufRd c) = spelled 0x2 c 0 0 0) ∧
  (∀ l, encode (.dimSet l) = spelled 0x3 0 0 0 l) ∧
  encode .muxMask = spelled 0x4 0 0 0 0 ∧
  encode .muxUnmask = spelled 0x5 0 0 0 0 ∧
  encode .tickRd = spelled 0x6 0 0 0 0 ∧
  (∀ v, encode (.debLoad v) = spelled 0x7 0 0 0 v) ∧
  encode .debRd = spelled 0x8 0 0 0 0 ∧
  (∀ i h m s, encode (.animStep i h m s) = spelled 0x9 i h m s) ∧
  encode .cfgLoad = spelled 0xA 0 0 0 0 ∧
  (∀ f, encode (.cfgRd f) = spelled 0xB f 0 0 0) ∧
  (∀ f v, encode (.cfgWr f v) = spelled 0xC f 0 0 v) ∧
  (∀ g, encode (.cfgCommit g) = spelled 0xD g 0 0 0)

/-- R88, R89: the assembler lines the spec writes out, and the expansions of the pseudo-commands. -/
def Obligations.AssemblerSpellsTheSpecsExamples : Prop :=
  assembleLine "BUF_WR 1, 0x06" = some (.main, 0x11000006) ∧
  assembleLine "ANIM_STEP 1, 12, 34, 10" = some (.main, 0x910C220A) ∧
  assembleLine "EDGE: DEB_LOAD 3" = some (.edge, 0x70000003) ∧
  assembleLine "TIMER: TICK" = some (.timer, 0x00000000) ∧
  Pseudo.expand .blankDigits = [.bufWr 0 0, .bufWr 1 0, .bufWr 2 0, .bufWr 3 0] ∧
  (∀ g f v, Pseudo.expand (.cfgSet g f v) = [.cfgWr f v, .cfgCommit g]) ∧
  (∀ body, Pseudo.expand (.crit body) = [.muxMask] ++ body ++ [.muxUnmask]) ∧
  Pseudo.expand .clearRing = (List.range 8).map fun k => .bufWr (BitVec.ofNat 4 (4 + k)) 0

/-! ### A step, the faults and RESET (spec/60_exceptions.md, spec/70_reset_and_hazards.md) -/

/-- R6, R87: when an agent issues a word to a block that is not halted (and, for MAIN, is between commands), and the word
decodes to `i`, the step is `exec i` with that agent as the issuer and the entry taken off the list. -/
def Obligations.StepRunsTheDecodedCommand : Prop :=
  ∀ (s : State) (a : Agent) (w : Word) (rest : List Event) (i : Instr),
    s.fault = none → s.inputs = .issue a w :: rest → (a = .main → s.busy = none) → decode w = .ok i →
    step s = exec i { s with inputs := rest, issuer := a }

/-- R83: a word with `OP` = 0xE or 0xF, from any agent, raises `ILLEGAL_OPCODE`, and nothing executes as a no-op. -/
def Obligations.ReservedOpcodeRaisesIllegalOpcode : Prop :=
  ∀ (s : State) (a : Agent) (w : Word) (rest : List Event),
    s.fault = none → s.inputs = .issue a w :: rest → (a = .main → s.busy = none) →
    (opField w = 0xE ∨ opField w = 0xF) →
    step s = .next { s with inputs := rest, issuer := a, fault := some ⟨.illegalOpcode, a, w⟩ }

/-- R86: a command word from an agent outside its "Agents" column raises `WRONG_AGENT`, whatever else is wrong with the word;
from an agent of the column it never does. -/
def Obligations.ForeignAgentRaisesWrongAgent : Prop :=
  ∀ (s : State) (a : Agent) (w : Word) (rest : List Event),
    s.fault = none → s.inputs = .issue a w :: rest → (a = .main → s.busy = none) → (opField w).toNat ≤ 13 →
    (¬ permitted a (opField w).toNat →
      step s = .next { s with inputs := rest, issuer := a, fault := some ⟨.wrongAgent, a, w⟩ }) ∧
    (permitted a (opField w).toNat → ∀ t r, step s = .next t → t.fault = some r → r.code ≠ .wrongAgent)

/-- R84: a 1 in a must-be-zero field (the word matches no row of R82) raises `RESERVED_FIELD`, before any effect. -/
def Obligations.NonzeroUnusedFieldRaisesReservedField : Prop :=
  ∀ (s : State) (a : Agent) (w : Word) (rest : List Event),
    s.fault = none → s.inputs = .issue a w :: rest → (a = .main → s.busy = none) →
    permitted a (opField w).toNat → (∀ r ∈ opcodeRows, r.accepts w = false) →
    step s = .next { s with inputs := rest, issuer := a, fault := some ⟨.reservedField, a, w⟩ }

/-- R85: an operand outside its range raises `OPERAND_RANGE`; a command whose operands are all in range never does. -/
def Obligations.OutOfRangeOperandRaisesOperandRange : Prop :=
  ∀ (i : Instr) (s : State), permitted s.issuer i.opcode.toNat →
    (i.wellFormed = false → exec i s = .next { s with fault := some ⟨.operandRange, s.issuer, encode i⟩ }) ∧
    (i.wellFormed = true → s.fault = none → ∀ t r, exec i s = .next t → t.fault = some r → r.code ≠ .operandRange)

/-- R35, R87: with no configuration loaded, `CFG_RD`, `CFG_WR` and `CFG_COMMIT` with legal operands raise
`CONFIG_NOT_LOADED`. -/
def Obligations.ConfigCommandsBeforeLoadRaiseConfigNotLoaded : Prop :=
  ∀ s : State, s.issuer = .main → s.cfgLoaded = false →
    (∀ f : BitVec 4, f.toNat < 10 →
      exec (.cfgRd f) s = .next { s with fault := some ⟨.configNotLoaded, .main, encode (.cfgRd f)⟩ }) ∧
    (∀ (f : BitVec 4) (v : Byte), legalFieldValue f.toNat v.toNat = true →
      exec (.cfgWr f v) s = .next { s with fault := some ⟨.configNotLoaded, .main, encode (.cfgWr f v)⟩ }) ∧
    (∀ g : BitVec 4, g.toNat < 6 →
      exec (.cfgCommit g) s = .next { s with fault := some ⟨.configNotLoaded, .main, encode (.cfgCommit g)⟩ })

/-- R262, R87: the outcome of a word, by the first cause of R262's order that applies to it; and with no cause, the word
decodes to the one command whose word it is, that command runs, and no fault is taken. -/
def Obligations.TheFirstFaultOfTheOrderIsTaken : Prop :=
  ∀ (s : State) (a : Agent) (w : Word) (rest : List Event),
    s.fault = none → s.inputs = .issue a w :: rest → (a = .main → s.busy = none) →
    let reserved := 14 ≤ (opField w).toNat
    let foreign := ¬ permitted a (opField w).toNat
    let unusedBit := ∀ r ∈ opcodeRows, r.accepts w = false
    let outOfRange := ∃ i, decode w = .ok i ∧ i.wellFormed = false
    let notLoaded := 11 ≤ (opField w).toNat ∧ (opField w).toNat ≤ 13 ∧ s.cfgLoaded = false
    let takes (c : FaultCode) := step s = .next { s with inputs := rest, issuer := a, fault := some ⟨c, a, w⟩ }
    (reserved → takes .illegalOpcode) ∧
    (¬ reserved → foreign → takes .wrongAgent) ∧
    (¬ reserved → ¬ foreign → unusedBit → takes .reservedField) ∧
    (¬ reserved → ¬ foreign → ¬ unusedBit → outOfRange → takes .operandRange) ∧
    (¬ reserved → ¬ foreign → ¬ unusedBit → ¬ outOfRange → notLoaded → takes .configNotLoaded) ∧
    (¬ reserved → ¬ foreign → ¬ unusedBit → ¬ outOfRange → ¬ notLoaded → ∃ i, decode w = .ok i ∧ encode i = w ∧
      step s = exec i { s with inputs := rest, issuer := a } ∧ ∀ t, step s = .next t → t.fault = none)

/-- R83: the reserved commands complete by taking `ILLEGAL_OPCODE`: only the fault register changes. -/
def Obligations.ReservedCommandsTakeIllegalOpcode : Prop :=
  ∀ (r : BitVec 28) (s : State),
    exec (.reservedE r) s = .next { s with fault := some ⟨.illegalOpcode, s.issuer, 0xE#4 ++ r⟩ } ∧
    exec (.reservedF r) s = .next { s with fault := some ⟨.illegalOpcode, s.issuer, 0xF#4 ++ r⟩ }

/-- R261: whichever command sets the fault register has written nothing else: faults are precise. -/
def Obligations.AFaultingCommandWritesOnlyTheFaultRegister : Prop :=
  ∀ (i : Instr) (s t : State), exec i s = .next t → t.fault ≠ s.fault →
    ∃ code, t = { s with fault := some ⟨code, s.issuer, encode i⟩ }

/-- R261: in a faulted block no agent has a step, and every step but RESET's leaves all as it is; the model takes the entry off
the environment's list (log 4). -/
def Obligations.FaultedBlockStandsUntilReset : Prop :=
  ∀ (s : State) (r : FaultRecord), s.fault = some r → s.resets = false →
    step s = .next { s with inputs := s.inputs.tail }

/-- R290, R291: RESET gives every register the value of R40's table, abandons a multi-step command, clears the fault and
leaves the EEPROM and the launch parameters as they are. The shadow, which R40 leaves unspecified, is not spoken of. -/
def Obligations.ResetEventRestoresTheResetValues : Prop :=
  ∀ (s : State) (rest : List Event), s.inputs = .reset :: rest →
    ∃ t, step s = .next t ∧ HasResetValues s t ∧ t.ee = s.ee ∧ t.inputs = rest

/-- R40: the state after reset, at the default parameters; the values the spec gives. -/
def Obligations.ResetStateHasTheSpecsValues : Prop :=
  (∀ c : Fin 12, State.reset.buf[c] = 0) ∧ State.reset.phase = 0 ∧ State.reset.dimCnt = 0 ∧ State.reset.dimLevel = 0 ∧
  State.reset.tickCnt = 0 ∧ State.reset.debCnt = 0 ∧ State.reset.muxMasked = true ∧ State.reset.muxPending = false ∧
  State.reset.outData = 0 ∧ State.reset.outDsel = 0 ∧ State.reset.outLsel = 0 ∧ State.reset.rdataMain = 0 ∧
  State.reset.rdataEdge = 0 ∧ State.reset.lfsr = 0x01 ∧ State.reset.lastIdx = none ∧ State.reset.lastMin = none ∧
  State.reset.cfgLoaded = false ∧ State.reset.fault = none

/-- R290, R292: a RESET during an EEPROM write sub-step (a rewrite, a later byte of a commit, or a commit's first byte) leaves
that one byte at a free value and every other byte of the EEPROM as it was; every register takes its value of R40's table, the
command is abandoned and the launch parameters stay. Nothing is said of the free value but that it is the next one (log 9). -/
def Obligations.ResetDuringAWriteTearsOnlyThatByte : Prop :=
  ∀ (s : State) (w : Word) (rest : List Event) (a : Nat), s.Inv → s.fault = none → s.inputs = .resetDuring w :: rest →
    writesNext s w a →
    ∃ t, step s = .next t ∧ HasResetValues s t ∧ t.ee.read a = Config.tornByte s.draws ∧ t.draws = s.draws + 1 ∧
      (∀ b, b ≠ a → t.ee.read b = s.ee.read b) ∧ t.inputs = rest

/-- R261, R290, R292: where MAIN's next step is no EEPROM write, or the block is halted, there is no write to cut, and the entry
is a RESET at the boundary (log 10). -/
def Obligations.ResetDuringNoWriteIsAPlainReset : Prop :=
  ∀ (s : State) (w : Word) (rest : List Event), s.inputs = .resetDuring w :: rest →
    (s.fault ≠ none ∨ ∀ a, ¬ writesNext s w a) → step s = step { s with inputs := .reset :: rest }

/-! ### The multiplexer (spec/43_multiplexer.md) -/

/-- R221, R222: an unmasked `TICK` runs one `MuxStep`: drive the phase the counter holds, then advance; nothing else changes. -/
def Obligations.UnmaskedTickRunsOneMuxStep : Prop :=
  ∀ s : State, s.issuer = .timer → s.muxMasked = false → exec .tick s = .next (muxStepped s)

/-- R221: a masked `TICK` latches one request and changes nothing else. -/
def Obligations.MaskedTickOnlyLatchesARequest : Prop :=
  ∀ s : State, s.issuer = .timer → s.muxMasked = true → exec .tick s = .next { s with muxPending := true }

/-- R227: `DIM_SET l` sets the dimming level and nothing else. -/
def Obligations.DimSetWritesTheLevel : Prop :=
  ∀ (s : State) (l : Byte) (h : l.toNat < 10), s.issuer = .main →
    exec (.dimSet l) s = .next { s with dimLevel := ⟨l.toNat, h⟩ }

/-- R228: `MUX_MASK` sets the mask and nothing else. -/
def Obligations.MuxMaskSetsTheMask : Prop :=
  ∀ s : State, s.issuer = .main → exec .muxMask s = .next { s with muxMasked := true }

/-- R229: `MUX_UNMASK` clears the mask, and with a request latched clears the latch and runs one `MuxStep`. -/
def Obligations.MuxUnmaskRunsTheLatchedStep : Prop :=
  ∀ s : State, s.issuer = .main →
    (s.muxPending = false → exec .muxUnmask s = .next { s with muxMasked := false }) ∧
    (s.muxPending = true → exec .muxUnmask s = .next (muxStepped { s with muxMasked := false, muxPending := false }))

/-- R31, R230, R232: `TICK_RD` and `DEB_RD` write the counter into the issuer's own result register and nothing else. -/
def Obligations.CounterReadsGoToTheIssuersRegister : Prop :=
  ∀ s : State,
    (s.issuer = .main → exec .tickRd s = .next { s with rdataMain := s.tickCnt } ∧
      exec .debRd s = .next { s with rdataMain := s.debCnt }) ∧
    (s.issuer = .edge → exec .tickRd s = .next { s with rdataEdge := s.tickCnt } ∧
      exec .debRd s = .next { s with rdataEdge := s.debCnt })

/-- R31: a command that changes a result register is a read command, and the register is its issuer's; of EDGE's commands only
the two counter reads are. -/
def Obligations.OnlyReadCommandsWriteTheIssuersResultRegister : Prop :=
  ∀ (i : Instr) (s t : State), exec i s = .next t →
    (t.rdataMain ≠ s.rdataMain → s.issuer = .main ∧
      ((∃ c, i = .bufRd c) ∨ i = .tickRd ∨ i = .debRd ∨ ∃ f, i = .cfgRd f)) ∧
    (t.rdataEdge ≠ s.rdataEdge → s.issuer = .edge ∧ (i = .tickRd ∨ i = .debRd))

/-- R231: `DEB_LOAD v` from MAIN or EDGE loads the debounce counter and changes nothing else. -/
def Obligations.DebLoadLoadsTheCounter : Prop :=
  ∀ (s : State) (v : Byte), s.issuer = .main ∨ s.issuer = .edge → exec (.debLoad v) s = .next { s with debCnt := v }

/-- R224: with the level held at `L`, 120 multiplexer steps drive exactly `12 * (10 - L)` times, wherever they start. -/
def Obligations.DutyOverTenFrames : Prop :=
  ∀ s : State, drivenSteps 120 s = 12 * (10 - s.dimLevel.val)

/-- R226: each multiplexer step takes one off the debounce counter, stopping at 0: after `n` steps `n` are gone. -/
def Obligations.DebounceCountsDownToZero : Prop :=
  ∀ (n : Nat) (s : State), (muxStep^[n] s).debCnt.toNat = s.debCnt.toNat - n

/-- R222, R225, R234: `n` multiplexer steps advance the phase by `n` modulo 12, the dimming counter once a wrap modulo 10, and
the tick counter by `n` modulo 256. -/
def Obligations.CountersAfterManyMuxSteps : Prop :=
  ∀ (n : Nat) (s : State),
    (muxStep^[n] s).phase.val = (s.phase.val + n) % 12 ∧
    (muxStep^[n] s).dimCnt.val = (s.dimCnt.val + (s.phase.val + n) / 12) % 10 ∧
    (muxStep^[n] s).tickCnt.toNat = (s.tickCnt.toNat + n) % 256

/-- R220, R223: from phase 0 of a driven frame, step `k + 1` puts cell `k` on the data lines and selects its line alone. -/
def Obligations.AFrameShowsEveryCellInItsPhase : Prop :=
  ∀ s : State, s.phase = 0 → s.dimLevel ≤ s.dimCnt → ∀ k : Fin 12,
    (muxStep^[k.val + 1] s).outData = s.buf[k] ∧
    (muxStep^[k.val + 1] s).outDsel = (if k.val < 4 then 1#4 <<< k.val else 0) ∧
    (muxStep^[k.val + 1] s).outLsel = (if k.val < 4 then 0 else 1#8 <<< (k.val - 4))

/-- R221, R229: however many ticks arrive under the mask, `MUX_UNMASK` runs exactly one multiplexer step for them all. -/
def Obligations.MaskedTicksCoalesceIntoOneStep : Prop :=
  ∀ (s : State) (n : Nat) (rest : List Event), s.fault = none → s.busy = none → s.muxMasked = true → 0 < n →
    s.inputs = List.replicate n (.issue .timer 0x00000000) ++ .issue .main 0x50000000 :: rest →
    Host.Core.run Sys2Proof.core (n + 1) s =
      .next (muxStepped { s with muxMasked := false, muxPending := false, issuer := .main, inputs := rest })

/-- R225, R233, R234: a step that is no RESET moves the phase, the dimming counter, the tick counter and the lines only if it
runs `MuxStep`; and if it does, the phase and the tick counter advance by one. -/
def Obligations.OnlyAMuxStepMovesTheMultiplexer : Prop :=
  ∀ s t : State, step s = .next t → s.resets = false →
    (s.runsMuxStep = false → t.phase = s.phase ∧ t.dimCnt = s.dimCnt ∧ t.tickCnt = s.tickCnt ∧ t.outData = s.outData ∧
      t.outDsel = s.outDsel ∧ t.outLsel = s.outLsel) ∧
    (s.runsMuxStep = true → t.phase.val = (s.phase.val + 1) % 12 ∧ t.tickCnt.toNat = (s.tickCnt.toNat + 1) % 256)

/-! ### The display buffer (spec/41_display_buffer.md) -/

/-- R141: `BUF_WR c, v` writes cell `c` and nothing else. -/
def Obligations.BufWrWritesItsCell : Prop :=
  ∀ (s : State) (c : BitVec 4) (v : Byte) (h : c.toNat < 12), s.issuer = .main →
    exec (.bufWr c v) s = .next { s with buf := s.buf.set c.toNat v h }

/-- R142: `BUF_RD c` puts cell `c` into MAIN's result register and changes nothing else. -/
def Obligations.BufRdReadsItsCell : Prop :=
  ∀ (s : State) (c : BitVec 4) (h : c.toNat < 12), s.issuer = .main →
    exec (.bufRd c) s = .next { s with rdataMain := s.buf[c.toNat] }

/-! ### The animation engine (spec/42_animation.md) -/

/-- R160, R161, R175: the compute step of `ANIM_STEP`. Skipped (animation 10 again at the same minute), it records index and
minute alone. Otherwise it also sets the generator to the animation's and leaves eight lane writes pending, whose bits are the
animation's lit set through `P_POSMAP` (R11). No buffer cell is written yet. -/
def Obligations.AnimStepComputesTheLanes : Prop :=
  ∀ (s : State) (i : BitVec 4) (h m sec : Byte), s.issuer = .main → h.toNat < 24 → m.toNat < 60 → sec.toNat < 60 →
    ((i = 10 ∧ s.lastIdx = some 10 ∧ s.lastMin = some m) →
      exec (.animStep i h m sec) s = .next { s with lastIdx := some i, lastMin := some m }) ∧
    (¬ (i = 10 ∧ s.lastIdx = some 10 ∧ s.lastMin = some m) → ∃ lanes : Vector Byte 8,
      exec (.animStep i h m sec) s = .next { s with
        lfsr := (animate s.params i h.toNat m.toNat sec.toNat s.tickCnt s.lfsr).2
        lastIdx := some i
        lastMin := some m
        busy := some (.anim 0 lanes) } ∧
      ∀ (j b : Fin 8), lanes[j].getLsbD b.val = true ↔
        ∃ q : Fin 60, (animate s.params i h.toNat m.toNat sec.toNat s.tickCnt s.lfsr).1 q = true ∧
          s.params.posMap[q].val = 8 * j.val + b.val)

/-- R64, R161: after `k` of the eight lane sub-steps, lanes 0 to `k - 1` stand in their cells 4 to `3 + k`, every other cell is
as it was, and of the rest of the state only MAIN's position moves: the next lane is `k`, and after lane 7 MAIN is between
commands. -/
def Obligations.LaneSubStepsWriteTheEightLanes : Prop :=
  ∀ (s : State) (lanes : Vector Byte 8) (rest : List Event) (k : Nat), k ≤ 8 → s.fault = none →
    s.busy = some (.anim 0 lanes) → s.inputs = alone 8 ++ rest → ∃ t : State, Host.Core.run Sys2Proof.core k s = .next t ∧
      (∀ j : Fin 8, t.buf[4 + j.val] = if j.val < k then lanes[j] else s.buf[4 + j.val]) ∧
      (∀ d : Fin 4, t.buf[d.val] = s.buf[d.val]) ∧
      t = { s with
        buf := t.buf
        busy := if h : k < 8 then some (.anim ⟨k, h⟩ lanes) else none
        inputs := alone (8 - k) ++ rest }

/-- R165 to R173: the lit sets of animations 0 to 8, position by position; none of them moves the generator. -/
def Obligations.LitSetsOfAnimationsZeroToEight : Prop :=
  ∀ (p : Config.Params) (h m s : Nat) (t r : Byte) (q : Fin 60),
    (animate p 0 h m s t r).1 q = false ∧
    ((animate p 1 h m s t r).1 q = true ↔ q.val = s) ∧
    ((animate p 2 h m s t r).1 q = true ↔ q.val ≠ s) ∧
    ((animate p 3 h m s t r).1 q = true ↔ q.val < s) ∧
    ((animate p 4 h m s t r).1 q = true ↔ q.val ≥ s) ∧
    ((animate p 5 h m s t r).1 q = true ↔ (m % 2 = 1 ∧ q.val < s) ∨ (m % 2 = 0 ∧ q.val ≥ s)) ∧
    ((animate p 6 h m s t r).1 q = true ↔ q.val = s ∨ q ∈ p.markers) ∧
    ((animate p 7 h m s t r).1 q = true ↔
      q.val = s ∨ ((s / 5) % 2 = 0 ∧ q ∈ p.mark7A) ∨ ((s / 5) % 2 = 1 ∧ q ∈ p.mark7B)) ∧
    ((animate p 8 h m s t r).1 q = true ↔ q.val = s ∨ (q ∈ p.markers ∧ q.val > s)) ∧
    (∀ i : BitVec 4, i.toNat ≤ 8 → (animate p i h m s t r).2 = r)

/-- R174 to R180: the lit sets of animations 9 to 15, and the generator, which only 14, and 15 at odd seconds, step once. -/
def Obligations.LitSetsOfAnimationsNineToFifteen : Prop :=
  ∀ (p : Config.Params) (h m s : Nat) (t r : Byte) (q : Fin 60),
    ((animate p 9 h m s t r).1 q = true ↔
      (m % 2 = 0 ∧ q.val < p.breath[t.toNat].val) ∨ (m % 2 = 1 ∧ q.val ≥ 60 - p.breath[t.toNat].val)) ∧
    ((animate p 10 h m s t r).1 q = true ↔ q.val = (h % 12) * 5 ∨ q.val < m) ∧
    ((animate p 11 h m s t r).1 q = true ↔ (s % 2 = 0 ∧ q.val = (h % 12) * 5) ∨ (s % 2 = 1 ∧ q.val < m)) ∧
    ((animate p 12 h m s t r).1 q = true ↔ (s % 2 = 0 ∧ q.val = (h % 12) * 5) ∨
      (s % 2 = 1 ∧ (q.val = (m + 59) % 60 ∨ q.val = m ∨ q.val = (m + 1) % 60))) ∧
    ((animate p 13 h m s t r).1 q = true ↔ (s % 2 = 0 ∧ q.val = (h % 12) * 5) ∨
      (s % 2 = 1 ∧ ∃ k, k < p.bar13W ∧ q.val = (5 * (m / 5) + k) % 60)) ∧
    ((animate p 14 h m s t r).1 q = true ↔ q.val = (lfsrStep p.taps r).toNat) ∧
    ((animate p 15 h m s t r).1 q = true ↔ (s % 2 = 0 ∧ q.val = s) ∨ (s % 2 = 1 ∧ q.val = (lfsrStep p.taps r).toNat)) ∧
    (∀ i : BitVec 4, 9 ≤ i.toNat → i.toNat ≤ 13 → (animate p i h m s t r).2 = r) ∧
    (animate p 14 h m s t r).2 = lfsrStep p.taps r ∧
    (animate p 15 h m s t r).2 = (if s % 2 = 0 then r else lfsrStep p.taps r)

/-- R163, R32: the generator step in numbers: shift left in 8 bits, add the parity of the tapped bits, reduce modulo 60. -/
def Obligations.FlickerStepInNumbers : Prop :=
  ∀ taps r : Byte,
    (lfsrStep taps r).toNat = ((2 * r.toNat) % 256 + popcount (r &&& taps) % 2) % 60 ∧ (lfsrStep taps r).toNat < 60

/-- R299: under the default taps the generator's only fixed points are 0 and 59, and 30 goes to 0. -/
def Obligations.FlickerFixedPointsUnderTheDefaultTaps : Prop :=
  (∀ r : Byte, lfsrStep Config.Params.default.taps r = r ↔ r = 0 ∨ r = 59) ∧ lfsrStep Config.Params.default.taps 30 = 0

/-- R168 (DOC's cumulative-fill property): `ANIM_STEP 3` at second `sec`, run to its end, leaves exactly `sec` LEDs of the ring
lit, whatever the position map of R8. -/
def Obligations.CumulativeFillLightsExactlySecondsLeds : Prop :=
  ∀ (s : State) (h m sec : Byte) (rest : List Event), s.params.wf = true → s.fault = none → s.busy = none →
    h.toNat < 24 → m.toNat < 60 → sec.toNat < 60 →
    s.inputs = .issue .main (encode (.animStep 3 h m sec)) :: (alone 8 ++ rest) →
    ∃ t : State, Host.Core.run Sys2Proof.core 9 s = .next t ∧ ringCount t = sec.toNat ∧ t.busy = none ∧ t.inputs = rest

/-! ### The configuration store (spec/40_config_store.md) -/

/-- R108: `CFG_RD f` puts the shadow's field `f` into MAIN's result register and changes nothing else. -/
def Obligations.CfgRdReadsTheShadow : Prop :=
  ∀ (s : State) (f : BitVec 4) (h : f.toNat < 10), s.issuer = .main → s.cfgLoaded = true →
    exec (.cfgRd f) s = .next { s with rdataMain := s.cfg[f.toNat] }

/-- R109, R100: `CFG_WR f, v` with `v` in the field's range writes the shadow's field `f` and nothing else, the EEPROM
included. -/
def Obligations.CfgWrWritesTheShadowAlone : Prop :=
  ∀ (s : State) (f : BitVec 4) (v : Byte) (h : f.toNat < 10), s.issuer = .main → s.cfgLoaded = true →
    legalFieldValue f.toNat v.toNat = true →
    exec (.cfgWr f v) s = .next { s with cfg := s.cfg.set f.toNat v h }

/-- R110: `CFG_COMMIT g` begins by writing the group's first field into the first byte of its slot; every other EEPROM byte
reads as before, and of the rest of the state only MAIN's position changes: the slot's other bytes, sampled now, are pending,
fields in R101's order and the checksum last. -/
def Obligations.CfgCommitWritesItsFirstByte : Prop :=
  ∀ (s : State) (g : BitVec 4) (h : g.toNat < 6), s.Inv → s.issuer = .main → s.cfgLoaded = true →
    ∃ t first more, shadowSlot s ⟨g.toNat, h⟩ = first :: more ∧ first.1 = s.params.eeBase + 4 * g.toNat ∧
      exec (.cfgCommit g) s = .next t ∧ t = { s with ee := t.ee, busy := some (.commit more) } ∧
      t.ee.read first.1 = first.2 ∧ sameOutside s t [first.1]

/-- R64, R110, R112, R292: `CFG_COMMIT g` and then `k` of its sub-steps, with nothing between them: the first `k + 1` bytes of the
slot, fields in R101's order and the checksum last, hold the shadow's bytes, every other EEPROM byte reads as before, and the
rest of the state is as it was but for MAIN's position; after the last byte MAIN is between commands and the group is valid. -/
def Obligations.CommitPersistsItsGroup : Prop :=
  ∀ (s : State) (g : BitVec 4) (h : g.toNat < 6) (rest : List Event) (k : Nat), s.Inv → s.cfgLoaded = true →
    s.fault = none → s.busy = none → k ≤ (tableFields ⟨g.toNat, h⟩).length →
    s.inputs = .issue .main (encode (.cfgCommit g)) :: (alone (tableFields ⟨g.toNat, h⟩).length ++ rest) →
    ∃ t : State, Host.Core.run Sys2Proof.core (k + 1) s = .next t ∧
      holds t ((shadowSlot s ⟨g.toNat, h⟩).take (k + 1)) ∧
      sameOutside s t (((shadowSlot s ⟨g.toNat, h⟩).take (k + 1)).map Prod.fst) ∧
      t = { s with
        ee := t.ee
        busy := if k < (tableFields ⟨g.toNat, h⟩).length then some (.commit ((shadowSlot s ⟨g.toNat, h⟩).drop (k + 1)))
          else none
        inputs := alone ((tableFields ⟨g.toNat, h⟩).length - k) ++ rest
        issuer := .main } ∧
      (k = (tableFields ⟨g.toNat, h⟩).length → validSlot t ⟨g.toNat, h⟩ ∧ groupValid t ⟨g.toNat, h⟩ = true)

/-- R105, R106: `CFG_LOAD` begins with group 0. If the slot's three bytes add up to its checksum byte modulo 256, the shadow
takes them as they are, in range or not, and group 1 is next; otherwise the shadow takes the defaults and the slot is to be
rewritten, fields first and checksum last. The EEPROM is unchanged by this sub-step. -/
def Obligations.CfgLoadReadsAndValidatesGroupZero : Prop :=
  ∀ s : State, s.params.wf = true → s.issuer = .main →
    ((s.ee.read s.params.eeBase + s.ee.read (s.params.eeBase + 1) + s.ee.read (s.params.eeBase + 2) =
        s.ee.read (s.params.eeBase + 3)) →
      exec .cfgLoad s = .next { s with
        cfg := ((s.cfg.set 0 (s.ee.read s.params.eeBase)).set 1 (s.ee.read (s.params.eeBase + 1))).set 2
          (s.ee.read (s.params.eeBase + 2))
        busy := some (.loadValidate 1) }) ∧
    ((s.ee.read s.params.eeBase + s.ee.read (s.params.eeBase + 1) + s.ee.read (s.params.eeBase + 2) ≠
        s.ee.read (s.params.eeBase + 3)) →
      exec .cfgLoad s = .next { s with
        cfg := ((s.cfg.set 0 s.params.defaults[0]).set 1 s.params.defaults[1]).set 2 s.params.defaults[2]
        busy := some (.loadRewrite 0 [(s.params.eeBase, s.params.defaults[0]),
          (s.params.eeBase + 1, s.params.defaults[1]), (s.params.eeBase + 2, s.params.defaults[2]),
          (s.params.eeBase + 3, s.params.defaults[0] + s.params.defaults[1] + s.params.defaults[2])]) })

/-- R105, R107, R112: `CFG_LOAD`, run to its end with nothing between its sub-steps, ends with the configuration loaded, every
group valid and each field of the shadow equal to its byte of the EEPROM, by R101's table and R103's layout; a group that was
valid keeps its slot, one that was not holds its defaults; every EEPROM byte outside the groups' used bytes reads as before,
and the rest of the state is as it was. -/
def Obligations.LoadLeavesEveryGroupValid : Prop :=
  ∀ (s : State) (rest : List Event), s.Inv → s.fault = none → s.busy = none →
    ∃ (n : Nat) (t : State), Host.Core.run Sys2Proof.core (n + 1)
        { s with inputs := .issue .main 0xA0000000 :: (alone n ++ rest) } = .next t ∧
      (∀ g : Fin 6, validSlot t g ∧ groupValid t g = true ∧ holds t (shadowSlot t g) ∧
        (validSlot s g → holds t (storedSlot s g)) ∧
        (¬ validSlot s g → holds t (defaultSlot s g))) ∧
      sameOutside s t ((List.finRange 6).flatMap fun g => (storedSlot s g).map Prod.fst) ∧
      t = { s with cfg := t.cfg, ee := t.ee, cfgLoaded := true, inputs := rest, issuer := .main }

/-- R64, R105, R107, R110, R161, R292: what ONE sub-step does from any position of MAIN's command. An animation writes the next
lane alone. A load reads and validates the next group alone, its fields by R101's table: a valid group goes into the shadow as
stored, any other takes its defaults and its slot is to be rewritten, fields ascending and checksum last. A rewrite or a commit
writes the next pending byte alone. The last sub-step of a load sets `cfg_loaded` (a step of its own: log 11). -/
def Obligations.OneSubStepFromEveryPosition : Prop :=
  ∀ (s : State) (rest : List Event), s.Inv → s.fault = none → s.inputs = .proceed :: rest →
    (∀ (j : Fin 8) (lanes : Vector Byte 8), s.busy = some (.anim j lanes) →
      step s = .next { s with
        inputs := rest
        buf := s.buf.set (4 + j.val) lanes[j]
        busy := if h : j.val < 7 then some (.anim ⟨j.val + 1, by omega⟩ lanes) else none }) ∧
    (∀ g : Fin 6, s.busy = some (.loadValidate g) → ∃ t, step s = .next t ∧
      (∀ f, f ∉ tableFields g → t.cfg[f] = s.cfg[f]) ∧
      (validSlot s g → holds s (shadowSlot t g) ∧
        t = { s with inputs := rest, cfg := t.cfg, busy := some (afterSlot g) }) ∧
      (¬ validSlot s g → (∀ f, f ∈ tableFields g → t.cfg[f] = s.params.defaults[f]) ∧
        t = { s with inputs := rest, cfg := t.cfg, busy := some (.loadRewrite g (defaultSlot s g)) })) ∧
    (∀ (g : Fin 6) (a : Nat) (v : Byte) (more : List Host.Cell), s.busy = some (.loadRewrite g ((a, v) :: more)) →
      ∃ t, step s = .next t ∧ t.ee.read a = v ∧ sameOutside s t [a] ∧
        t = { s with
          inputs := rest
          ee := t.ee
          busy := some (if more.isEmpty then afterSlot g else .loadRewrite g more) }) ∧
    (s.busy = some .loadFinish → step s = .next { s with inputs := rest, cfgLoaded := true, busy := none }) ∧
    (∀ (a : Nat) (v : Byte) (more : List Host.Cell), s.busy = some (.commit ((a, v) :: more)) →
      ∃ t, step s = .next t ∧ t.ee.read a = v ∧ sameOutside s t [a] ∧
        t = { s with inputs := rest, ee := t.ee, busy := if more.isEmpty then none else some (.commit more) })

/-- R113: where every byte of a group's slot reads 0xFF, the group passes its check exactly if it has a single field. -/
def Obligations.ErasedSlotPassesIffSingleField : Prop :=
  ∀ (s : State) (g : Fin 6), (∀ k, k < 4 → s.ee.read (s.params.eeBase + 4 * g.val + k) = 0xFF) →
    (groupValid s g = true ↔ (tableFields g).length = 1)

/-- R102, R113: the checksum is the sum modulo 256, so reordering a group's bytes or moving an amount from one to another does
not change it. -/
def Obligations.ChecksumIsBlindToOrderAndCompensation : Prop :=
  (∀ vals : List Byte, (cks vals).toNat = (vals.map BitVec.toNat).sum % 256) ∧
  (∀ vals vals' : List Byte, vals.Perm vals' → cks vals = cks vals') ∧
  (∀ (a b k : Byte) (more : List Byte), cks ((a + k) :: (b - k) :: more) = cks (a :: b :: more))

/-- R111: a step that is no RESET and changes an EEPROM byte is MAIN's, in a block that is not halted: a rewrite sub-step of
`CFG_LOAD` or a sub-step of `CFG_COMMIT`, which writes its own next byte, or the first step of a `CFG_COMMIT` with a legal group,
which writes the first byte of that group's slot. No step of TIMER or EDGE, and no other step of MAIN, changes one. -/
def Obligations.OnlyLoadAndCommitWriteTheEeprom : Prop :=
  ∀ (s t : State) (a : Nat), s.ee.wf = true → step s = .next t → s.resets = false → t.ee.read a ≠ s.ee.read a →
    mainsStep s ∧
    ((∃ g v more, s.busy = some (.loadRewrite g ((a, v) :: more)) ∧ t.ee.read a = v) ∨
     (∃ v more, s.busy = some (.commit ((a, v) :: more)) ∧ t.ee.read a = v) ∨
     (s.busy = none ∧ s.cfgLoaded = true ∧ ∃ g rest, g.toNat < 6 ∧
      s.inputs = .issue .main (encode (.cfgCommit g)) :: rest ∧ a = s.params.eeBase + 4 * g.toNat))

/-! ### The whole machine -/

/-- R30, R32, R33, R36, R111: every step keeps the invariant `State.Inv` (the parameters meet R8; the EEPROM is canonical and
inside its size; at most one select line is on, and the data lines are 0 when none is; a request is latched only under the
mask; the generator holds its seed or a value below 60; the memo is whole and its minute legal; pending EEPROM writes lie in
the slots), from every state that meets it. -/
def Obligations.EveryStepKeepsTheInvariant : Prop :=
  ∀ s t : State, s.Inv → step s = .next t → t.Inv

/-- R40: the reset state meets the invariant. -/
def Obligations.ResetMeetsTheInvariant : Prop :=
  State.reset.Inv

/-- R260, R261: from a state that meets the invariant every step has a next state: the block's faults are taken, and no EEPROM
address lies outside the EEPROM. -/
def Obligations.NoStepStopsTheMachine : Prop :=
  ∀ s : State, s.Inv → ∃ t, step s = .next t

/-- R8, R20: the launch parameters are fixed: no step changes them. -/
def Obligations.NoStepChangesTheParameters : Prop :=
  ∀ s t : State, step s = .next t → t.params = s.params

/-- R267, R265, R143: a step of TIMER or EDGE leaves MAIN's position, the buffer, the shadow, the EEPROM, the dimming level,
the mask, the animation registers and MAIN's result register as they are. -/
def Obligations.InterruptStepsLeaveMainAlone : Prop :=
  ∀ (s t : State) (a : Agent) (w : Word) (rest : List Event), s.inputs = .issue a w :: rest → a ≠ .main →
    step s = .next t →
    t.busy = s.busy ∧ t.buf = s.buf ∧ t.cfg = s.cfg ∧ t.cfgLoaded = s.cfgLoaded ∧ t.ee = s.ee ∧
    t.dimLevel = s.dimLevel ∧ t.muxMasked = s.muxMasked ∧ t.lfsr = s.lfsr ∧ t.lastIdx = s.lastIdx ∧
    t.lastMin = s.lastMin ∧ t.rdataMain = s.rdataMain

/-- R64: MAIN issues nothing else until its multi-step command has finished: its next word waits, and the step is the next
sub-step, as if MAIN's turn alone had come (log 2). -/
def Obligations.MainsNextWordWaitsForItsCommand : Prop :=
  ∀ (s : State) (w : Word) (rest : List Event) (p : Progress), s.Inv → s.fault = none → s.busy = some p →
    s.inputs = .issue .main w :: rest →
    ∃ t, step s = .next t ∧ t.inputs = s.inputs ∧ step { s with inputs := .proceed :: s.inputs } = .next t
end

