-- ==== Sys2Proof/Laws/State.lean ====
section
/-! SUPPORT. What each named update of Machine/Ops.lean does to each field of State: one lemma per field per update, so that
no later proof unfolds a record update. -/

namespace Sys2Proof.Machine

variable (s : State)

/-! ### `State.putByte` -/

@[simp] theorem putByte_buf (a : Nat) (v : Byte) : (s.putByte a v).buf = s.buf := rfl
@[simp] theorem putByte_phase (a : Nat) (v : Byte) : (s.putByte a v).phase = s.phase := rfl
@[simp] theorem putByte_dimCnt (a : Nat) (v : Byte) : (s.putByte a v).dimCnt = s.dimCnt := rfl
@[simp] theorem putByte_dimLevel (a : Nat) (v : Byte) : (s.putByte a v).dimLevel = s.dimLevel := rfl
@[simp] theorem putByte_tickCnt (a : Nat) (v : Byte) : (s.putByte a v).tickCnt = s.tickCnt := rfl
@[simp] theorem putByte_debCnt (a : Nat) (v : Byte) : (s.putByte a v).debCnt = s.debCnt := rfl
@[simp] theorem putByte_muxMasked (a : Nat) (v : Byte) : (s.putByte a v).muxMasked = s.muxMasked := rfl
@[simp] theorem putByte_muxPending (a : Nat) (v : Byte) : (s.putByte a v).muxPending = s.muxPending := rfl
@[simp] theorem putByte_outData (a : Nat) (v : Byte) : (s.putByte a v).outData = s.outData := rfl
@[simp] theorem putByte_outDsel (a : Nat) (v : Byte) : (s.putByte a v).outDsel = s.outDsel := rfl
@[simp] theorem putByte_outLsel (a : Nat) (v : Byte) : (s.putByte a v).outLsel = s.outLsel := rfl
@[simp] theorem putByte_rdataMain (a : Nat) (v : Byte) : (s.putByte a v).rdataMain = s.rdataMain := rfl
@[simp] theorem putByte_rdataEdge (a : Nat) (v : Byte) : (s.putByte a v).rdataEdge = s.rdataEdge := rfl
@[simp] theorem putByte_lfsr (a : Nat) (v : Byte) : (s.putByte a v).lfsr = s.lfsr := rfl
@[simp] theorem putByte_lastIdx (a : Nat) (v : Byte) : (s.putByte a v).lastIdx = s.lastIdx := rfl
@[simp] theorem putByte_lastMin (a : Nat) (v : Byte) : (s.putByte a v).lastMin = s.lastMin := rfl
@[simp] theorem putByte_cfg (a : Nat) (v : Byte) : (s.putByte a v).cfg = s.cfg := rfl
@[simp] theorem putByte_cfgLoaded (a : Nat) (v : Byte) : (s.putByte a v).cfgLoaded = s.cfgLoaded := rfl
@[simp] theorem putByte_ee (a : Nat) (v : Byte) : (s.putByte a v).ee = s.ee.write a v := rfl
@[simp] theorem putByte_fault (a : Nat) (v : Byte) : (s.putByte a v).fault = s.fault := rfl
@[simp] theorem putByte_busy (a : Nat) (v : Byte) : (s.putByte a v).busy = s.busy := rfl
@[simp] theorem putByte_issuer (a : Nat) (v : Byte) : (s.putByte a v).issuer = s.issuer := rfl
@[simp] theorem putByte_inputs (a : Nat) (v : Byte) : (s.putByte a v).inputs = s.inputs := rfl
@[simp] theorem putByte_draws (a : Nat) (v : Byte) : (s.putByte a v).draws = s.draws := rfl
@[simp] theorem putByte_params (a : Nat) (v : Byte) : (s.putByte a v).params = s.params := rfl

/-! ### `State.writeCell` -/

@[simp] theorem writeCell_buf (c : Fin 12) (v : Byte) : (s.writeCell c v).buf = s.buf.set c v := rfl
@[simp] theorem writeCell_phase (c : Fin 12) (v : Byte) : (s.writeCell c v).phase = s.phase := rfl
@[simp] theorem writeCell_dimCnt (c : Fin 12) (v : Byte) : (s.writeCell c v).dimCnt = s.dimCnt := rfl
@[simp] theorem writeCell_dimLevel (c : Fin 12) (v : Byte) : (s.writeCell c v).dimLevel = s.dimLevel := rfl
@[simp] theorem writeCell_tickCnt (c : Fin 12) (v : Byte) : (s.writeCell c v).tickCnt = s.tickCnt := rfl
@[simp] theorem writeCell_debCnt (c : Fin 12) (v : Byte) : (s.writeCell c v).debCnt = s.debCnt := rfl
@[simp] theorem writeCell_muxMasked (c : Fin 12) (v : Byte) : (s.writeCell c v).muxMasked = s.muxMasked := rfl
@[simp] theorem writeCell_muxPending (c : Fin 12) (v : Byte) : (s.writeCell c v).muxPending = s.muxPending := rfl
@[simp] theorem writeCell_outData (c : Fin 12) (v : Byte) : (s.writeCell c v).outData = s.outData := rfl
@[simp] theorem writeCell_outDsel (c : Fin 12) (v : Byte) : (s.writeCell c v).outDsel = s.outDsel := rfl
@[simp] theorem writeCell_outLsel (c : Fin 12) (v : Byte) : (s.writeCell c v).outLsel = s.outLsel := rfl
@[simp] theorem writeCell_rdataMain (c : Fin 12) (v : Byte) : (s.writeCell c v).rdataMain = s.rdataMain := rfl
@[simp] theorem writeCell_rdataEdge (c : Fin 12) (v : Byte) : (s.writeCell c v).rdataEdge = s.rdataEdge := rfl
@[simp] theorem writeCell_lfsr (c : Fin 12) (v : Byte) : (s.writeCell c v).lfsr = s.lfsr := rfl
@[simp] theorem writeCell_lastIdx (c : Fin 12) (v : Byte) : (s.writeCell c v).lastIdx = s.lastIdx := rfl
@[simp] theorem writeCell_lastMin (c : Fin 12) (v : Byte) : (s.writeCell c v).lastMin = s.lastMin := rfl
@[simp] theorem writeCell_cfg (c : Fin 12) (v : Byte) : (s.writeCell c v).cfg = s.cfg := rfl
@[simp] theorem writeCell_cfgLoaded (c : Fin 12) (v : Byte) : (s.writeCell c v).cfgLoaded = s.cfgLoaded := rfl
@[simp] theorem writeCell_ee (c : Fin 12) (v : Byte) : (s.writeCell c v).ee = s.ee := rfl
@[simp] theorem writeCell_fault (c : Fin 12) (v : Byte) : (s.writeCell c v).fault = s.fault := rfl
@[simp] theorem writeCell_busy (c : Fin 12) (v : Byte) : (s.writeCell c v).busy = s.busy := rfl
@[simp] theorem writeCell_issuer (c : Fin 12) (v : Byte) : (s.writeCell c v).issuer = s.issuer := rfl
@[simp] theorem writeCell_inputs (c : Fin 12) (v : Byte) : (s.writeCell c v).inputs = s.inputs := rfl
@[simp] theorem writeCell_draws (c : Fin 12) (v : Byte) : (s.writeCell c v).draws = s.draws := rfl
@[simp] theorem writeCell_params (c : Fin 12) (v : Byte) : (s.writeCell c v).params = s.params := rfl

/-! ### `State.setDimLevel` -/

@[simp] theorem setDimLevel_buf (l : Fin 10) : (s.setDimLevel l).buf = s.buf := rfl
@[simp] theorem setDimLevel_phase (l : Fin 10) : (s.setDimLevel l).phase = s.phase := rfl
@[simp] theorem setDimLevel_dimCnt (l : Fin 10) : (s.setDimLevel l).dimCnt = s.dimCnt := rfl
@[simp] theorem setDimLevel_dimLevel (l : Fin 10) : (s.setDimLevel l).dimLevel = l := rfl
@[simp] theorem setDimLevel_tickCnt (l : Fin 10) : (s.setDimLevel l).tickCnt = s.tickCnt := rfl
@[simp] theorem setDimLevel_debCnt (l : Fin 10) : (s.setDimLevel l).debCnt = s.debCnt := rfl
@[simp] theorem setDimLevel_muxMasked (l : Fin 10) : (s.setDimLevel l).muxMasked = s.muxMasked := rfl
@[simp] theorem setDimLevel_muxPending (l : Fin 10) : (s.setDimLevel l).muxPending = s.muxPending := rfl
@[simp] theorem setDimLevel_outData (l : Fin 10) : (s.setDimLevel l).outData = s.outData := rfl
@[simp] theorem setDimLevel_outDsel (l : Fin 10) : (s.setDimLevel l).outDsel = s.outDsel := rfl
@[simp] theorem setDimLevel_outLsel (l : Fin 10) : (s.setDimLevel l).outLsel = s.outLsel := rfl
@[simp] theorem setDimLevel_rdataMain (l : Fin 10) : (s.setDimLevel l).rdataMain = s.rdataMain := rfl
@[simp] theorem setDimLevel_rdataEdge (l : Fin 10) : (s.setDimLevel l).rdataEdge = s.rdataEdge := rfl
@[simp] theorem setDimLevel_lfsr (l : Fin 10) : (s.setDimLevel l).lfsr = s.lfsr := rfl
@[simp] theorem setDimLevel_lastIdx (l : Fin 10) : (s.setDimLevel l).lastIdx = s.lastIdx := rfl
@[simp] theorem setDimLevel_lastMin (l : Fin 10) : (s.setDimLevel l).lastMin = s.lastMin := rfl
@[simp] theorem setDimLevel_cfg (l : Fin 10) : (s.setDimLevel l).cfg = s.cfg := rfl
@[simp] theorem setDimLevel_cfgLoaded (l : Fin 10) : (s.setDimLevel l).cfgLoaded = s.cfgLoaded := rfl
@[simp] theorem setDimLevel_ee (l : Fin 10) : (s.setDimLevel l).ee = s.ee := rfl
@[simp] theorem setDimLevel_fault (l : Fin 10) : (s.setDimLevel l).fault = s.fault := rfl
@[simp] theorem setDimLevel_busy (l : Fin 10) : (s.setDimLevel l).busy = s.busy := rfl
@[simp] theorem setDimLevel_issuer (l : Fin 10) : (s.setDimLevel l).issuer = s.issuer := rfl
@[simp] theorem setDimLevel_inputs (l : Fin 10) : (s.setDimLevel l).inputs = s.inputs := rfl
@[simp] theorem setDimLevel_draws (l : Fin 10) : (s.setDimLevel l).draws = s.draws := rfl
@[simp] theorem setDimLevel_params (l : Fin 10) : (s.setDimLevel l).params = s.params := rfl

/-! ### `State.setMasked` -/

@[simp] theorem setMasked_buf (b : Bool) : (s.setMasked b).buf = s.buf := rfl
@[simp] theorem setMasked_phase (b : Bool) : (s.setMasked b).phase = s.phase := rfl
@[simp] theorem setMasked_dimCnt (b : Bool) : (s.setMasked b).dimCnt = s.dimCnt := rfl
@[simp] theorem setMasked_dimLevel (b : Bool) : (s.setMasked b).dimLevel = s.dimLevel := rfl
@[simp] theorem setMasked_tickCnt (b : Bool) : (s.setMasked b).tickCnt = s.tickCnt := rfl
@[simp] theorem setMasked_debCnt (b : Bool) : (s.setMasked b).debCnt = s.debCnt := rfl
@[simp] theorem setMasked_muxMasked (b : Bool) : (s.setMasked b).muxMasked = b := rfl
@[simp] theorem setMasked_muxPending (b : Bool) : (s.setMasked b).muxPending = s.muxPending := rfl
@[simp] theorem setMasked_outData (b : Bool) : (s.setMasked b).outData = s.outData := rfl
@[simp] theorem setMasked_outDsel (b : Bool) : (s.setMasked b).outDsel = s.outDsel := rfl
@[simp] theorem setMasked_outLsel (b : Bool) : (s.setMasked b).outLsel = s.outLsel := rfl
@[simp] theorem setMasked_rdataMain (b : Bool) : (s.setMasked b).rdataMain = s.rdataMain := rfl
@[simp] theorem setMasked_rdataEdge (b : Bool) : (s.setMasked b).rdataEdge = s.rdataEdge := rfl
@[simp] theorem setMasked_lfsr (b : Bool) : (s.setMasked b).lfsr = s.lfsr := rfl
@[simp] theorem setMasked_lastIdx (b : Bool) : (s.setMasked b).lastIdx = s.lastIdx := rfl
@[simp] theorem setMasked_lastMin (b : Bool) : (s.setMasked b).lastMin = s.lastMin := rfl
@[simp] theorem setMasked_cfg (b : Bool) : (s.setMasked b).cfg = s.cfg := rfl
@[simp] theorem setMasked_cfgLoaded (b : Bool) : (s.setMasked b).cfgLoaded = s.cfgLoaded := rfl
@[simp] theorem setMasked_ee (b : Bool) : (s.setMasked b).ee = s.ee := rfl
@[simp] theorem setMasked_fault (b : Bool) : (s.setMasked b).fault = s.fault := rfl
@[simp] theorem setMasked_busy (b : Bool) : (s.setMasked b).busy = s.busy := rfl
@[simp] theorem setMasked_issuer (b : Bool) : (s.setMasked b).issuer = s.issuer := rfl
@[simp] theorem setMasked_inputs (b : Bool) : (s.setMasked b).inputs = s.inputs := rfl
@[simp] theorem setMasked_draws (b : Bool) : (s.setMasked b).draws = s.draws := rfl
@[simp] theorem setMasked_params (b : Bool) : (s.setMasked b).params = s.params := rfl

/-! ### `State.setPending` -/

@[simp] theorem setPending_buf (b : Bool) : (s.setPending b).buf = s.buf := rfl
@[simp] theorem setPending_phase (b : Bool) : (s.setPending b).phase = s.phase := rfl
@[simp] theorem setPending_dimCnt (b : Bool) : (s.setPending b).dimCnt = s.dimCnt := rfl
@[simp] theorem setPending_dimLevel (b : Bool) : (s.setPending b).dimLevel = s.dimLevel := rfl
@[simp] theorem setPending_tickCnt (b : Bool) : (s.setPending b).tickCnt = s.tickCnt := rfl
@[simp] theorem setPending_debCnt (b : Bool) : (s.setPending b).debCnt = s.debCnt := rfl
@[simp] theorem setPending_muxMasked (b : Bool) : (s.setPending b).muxMasked = s.muxMasked := rfl
@[simp] theorem setPending_muxPending (b : Bool) : (s.setPending b).muxPending = b := rfl
@[simp] theorem setPending_outData (b : Bool) : (s.setPending b).outData = s.outData := rfl
@[simp] theorem setPending_outDsel (b : Bool) : (s.setPending b).outDsel = s.outDsel := rfl
@[simp] theorem setPending_outLsel (b : Bool) : (s.setPending b).outLsel = s.outLsel := rfl
@[simp] theorem setPending_rdataMain (b : Bool) : (s.setPending b).rdataMain = s.rdataMain := rfl
@[simp] theorem setPending_rdataEdge (b : Bool) : (s.setPending b).rdataEdge = s.rdataEdge := rfl
@[simp] theorem setPending_lfsr (b : Bool) : (s.setPending b).lfsr = s.lfsr := rfl
@[simp] theorem setPending_lastIdx (b : Bool) : (s.setPending b).lastIdx = s.lastIdx := rfl
@[simp] theorem setPending_lastMin (b : Bool) : (s.setPending b).lastMin = s.lastMin := rfl
@[simp] theorem setPending_cfg (b : Bool) : (s.setPending b).cfg = s.cfg := rfl
@[simp] theorem setPending_cfgLoaded (b : Bool) : (s.setPending b).cfgLoaded = s.cfgLoaded := rfl
@[simp] theorem setPending_ee (b : Bool) : (s.setPending b).ee = s.ee := rfl
@[simp] theorem setPending_fault (b : Bool) : (s.setPending b).fault = s.fault := rfl
@[simp] theorem setPending_busy (b : Bool) : (s.setPending b).busy = s.busy := rfl
@[simp] theorem setPending_issuer (b : Bool) : (s.setPending b).issuer = s.issuer := rfl
@[simp] theorem setPending_inputs (b : Bool) : (s.setPending b).inputs = s.inputs := rfl
@[simp] theorem setPending_draws (b : Bool) : (s.setPending b).draws = s.draws := rfl
@[simp] theorem setPending_params (b : Bool) : (s.setPending b).params = s.params := rfl

/-! ### `State.loadDebounce` -/

@[simp] theorem loadDebounce_buf (v : Byte) : (s.loadDebounce v).buf = s.buf := rfl
@[simp] theorem loadDebounce_phase (v : Byte) : (s.loadDebounce v).phase = s.phase := rfl
@[simp] theorem loadDebounce_dimCnt (v : Byte) : (s.loadDebounce v).dimCnt = s.dimCnt := rfl
@[simp] theorem loadDebounce_dimLevel (v : Byte) : (s.loadDebounce v).dimLevel = s.dimLevel := rfl
@[simp] theorem loadDebounce_tickCnt (v : Byte) : (s.loadDebounce v).tickCnt = s.tickCnt := rfl
@[simp] theorem loadDebounce_debCnt (v : Byte) : (s.loadDebounce v).debCnt = v := rfl
@[simp] theorem loadDebounce_muxMasked (v : Byte) : (s.loadDebounce v).muxMasked = s.muxMasked := rfl
@[simp] theorem loadDebounce_muxPending (v : Byte) : (s.loadDebounce v).muxPending = s.muxPending := rfl
@[simp] theorem loadDebounce_outData (v : Byte) : (s.loadDebounce v).outData = s.outData := rfl
@[simp] theorem loadDebounce_outDsel (v : Byte) : (s.loadDebounce v).outDsel = s.outDsel := rfl
@[simp] theorem loadDebounce_outLsel (v : Byte) : (s.loadDebounce v).outLsel = s.outLsel := rfl
@[simp] theorem loadDebounce_rdataMain (v : Byte) : (s.loadDebounce v).rdataMain = s.rdataMain := rfl
@[simp] theorem loadDebounce_rdataEdge (v : Byte) : (s.loadDebounce v).rdataEdge = s.rdataEdge := rfl
@[simp] theorem loadDebounce_lfsr (v : Byte) : (s.loadDebounce v).lfsr = s.lfsr := rfl
@[simp] theorem loadDebounce_lastIdx (v : Byte) : (s.loadDebounce v).lastIdx = s.lastIdx := rfl
@[simp] theorem loadDebounce_lastMin (v : Byte) : (s.loadDebounce v).lastMin = s.lastMin := rfl
@[simp] theorem loadDebounce_cfg (v : Byte) : (s.loadDebounce v).cfg = s.cfg := rfl
@[simp] theorem loadDebounce_cfgLoaded (v : Byte) : (s.loadDebounce v).cfgLoaded = s.cfgLoaded := rfl
@[simp] theorem loadDebounce_ee (v : Byte) : (s.loadDebounce v).ee = s.ee := rfl
@[simp] theorem loadDebounce_fault (v : Byte) : (s.loadDebounce v).fault = s.fault := rfl
@[simp] theorem loadDebounce_busy (v : Byte) : (s.loadDebounce v).busy = s.busy := rfl
@[simp] theorem loadDebounce_issuer (v : Byte) : (s.loadDebounce v).issuer = s.issuer := rfl
@[simp] theorem loadDebounce_inputs (v : Byte) : (s.loadDebounce v).inputs = s.inputs := rfl
@[simp] theorem loadDebounce_draws (v : Byte) : (s.loadDebounce v).draws = s.draws := rfl
@[simp] theorem loadDebounce_params (v : Byte) : (s.loadDebounce v).params = s.params := rfl

/-! ### `State.setLines` -/

@[simp] theorem setLines_buf (d : Byte) (e : BitVec 4) (l : BitVec 8) : (s.setLines d e l).buf = s.buf := rfl
@[simp] theorem setLines_phase (d : Byte) (e : BitVec 4) (l : BitVec 8) : (s.setLines d e l).phase = s.phase := rfl
@[simp] theorem setLines_dimCnt (d : Byte) (e : BitVec 4) (l : BitVec 8) : (s.setLines d e l).dimCnt = s.dimCnt := rfl
@[simp] theorem setLines_dimLevel (d : Byte) (e : BitVec 4) (l : BitVec 8) : (s.setLines d e l).dimLevel = s.dimLevel := rfl
@[simp] theorem setLines_tickCnt (d : Byte) (e : BitVec 4) (l : BitVec 8) : (s.setLines d e l).tickCnt = s.tickCnt := rfl
@[simp] theorem setLines_debCnt (d : Byte) (e : BitVec 4) (l : BitVec 8) : (s.setLines d e l).debCnt = s.debCnt := rfl
@[simp] theorem setLines_muxMasked (d : Byte) (e : BitVec 4) (l : BitVec 8) : (s.setLines d e l).muxMasked = s.muxMasked := rfl
@[simp] theorem setLines_muxPending (d : Byte) (e : BitVec 4) (l : BitVec 8) : (s.setLines d e l).muxPending = s.muxPending := rfl
@[simp] theorem setLines_outData (d : Byte) (e : BitVec 4) (l : BitVec 8) : (s.setLines d e l).outData = d := rfl
@[simp] theorem setLines_outDsel (d : Byte) (e : BitVec 4) (l : BitVec 8) : (s.setLines d e l).outDsel = e := rfl
@[simp] theorem setLines_outLsel (d : Byte) (e : BitVec 4) (l : BitVec 8) : (s.setLines d e l).outLsel = l := rfl
@[simp] theorem setLines_rdataMain (d : Byte) (e : BitVec 4) (l : BitVec 8) : (s.setLines d e l).rdataMain = s.rdataMain := rfl
@[simp] theorem setLines_rdataEdge (d : Byte) (e : BitVec 4) (l : BitVec 8) : (s.setLines d e l).rdataEdge = s.rdataEdge := rfl
@[simp] theorem setLines_lfsr (d : Byte) (e : BitVec 4) (l : BitVec 8) : (s.setLines d e l).lfsr = s.lfsr := rfl
@[simp] theorem setLines_lastIdx (d : Byte) (e : BitVec 4) (l : BitVec 8) : (s.setLines d e l).lastIdx = s.lastIdx := rfl
@[simp] theorem setLines_lastMin (d : Byte) (e : BitVec 4) (l : BitVec 8) : (s.setLines d e l).lastMin = s.lastMin := rfl
@[simp] theorem setLines_cfg (d : Byte) (e : BitVec 4) (l : BitVec 8) : (s.setLines d e l).cfg = s.cfg := rfl
@[simp] theorem setLines_cfgLoaded (d : Byte) (e : BitVec 4) (l : BitVec 8) : (s.setLines d e l).cfgLoaded = s.cfgLoaded := rfl
@[simp] theorem setLines_ee (d : Byte) (e : BitVec 4) (l : BitVec 8) : (s.setLines d e l).ee = s.ee := rfl
@[simp] theorem setLines_fault (d : Byte) (e : BitVec 4) (l : BitVec 8) : (s.setLines d e l).fault = s.fault := rfl
@[simp] theorem setLines_busy (d : Byte) (e : BitVec 4) (l : BitVec 8) : (s.setLines d e l).busy = s.busy := rfl
@[simp] theorem setLines_issuer (d : Byte) (e : BitVec 4) (l : BitVec 8) : (s.setLines d e l).issuer = s.issuer := rfl
@[simp] theorem setLines_inputs (d : Byte) (e : BitVec 4) (l : BitVec 8) : (s.setLines d e l).inputs = s.inputs := rfl
@[simp] theorem setLines_draws (d : Byte) (e : BitVec 4) (l : BitVec 8) : (s.setLines d e l).draws = s.draws := rfl
@[simp] theorem setLines_params (d : Byte) (e : BitVec 4) (l : BitVec 8) : (s.setLines d e l).params = s.params := rfl

/-! ### `State.noteAnimation` -/

@[simp] theorem noteAnimation_buf (r : Byte) (i : BitVec 4) (m : Byte) : (s.noteAnimation r i m).buf = s.buf := rfl
@[simp] theorem noteAnimation_phase (r : Byte) (i : BitVec 4) (m : Byte) : (s.noteAnimation r i m).phase = s.phase := rfl
@[simp] theorem noteAnimation_dimCnt (r : Byte) (i : BitVec 4) (m : Byte) : (s.noteAnimation r i m).dimCnt = s.dimCnt := rfl
@[simp] theorem noteAnimation_dimLevel (r : Byte) (i : BitVec 4) (m : Byte) : (s.noteAnimation r i m).dimLevel = s.dimLevel := rfl
@[simp] theorem noteAnimation_tickCnt (r : Byte) (i : BitVec 4) (m : Byte) : (s.noteAnimation r i m).tickCnt = s.tickCnt := rfl
@[simp] theorem noteAnimation_debCnt (r : Byte) (i : BitVec 4) (m : Byte) : (s.noteAnimation r i m).debCnt = s.debCnt := rfl
@[simp] theorem noteAnimation_muxMasked (r : Byte) (i : BitVec 4) (m : Byte) : (s.noteAnimation r i m).muxMasked = s.muxMasked := rfl
@[simp] theorem noteAnimation_muxPending (r : Byte) (i : BitVec 4) (m : Byte) : (s.noteAnimation r i m).muxPending = s.muxPending := rfl
@[simp] theorem noteAnimation_outData (r : Byte) (i : BitVec 4) (m : Byte) : (s.noteAnimation r i m).outData = s.outData := rfl
@[simp] theorem noteAnimation_outDsel (r : Byte) (i : BitVec 4) (m : Byte) : (s.noteAnimation r i m).outDsel = s.outDsel := rfl
@[simp] theorem noteAnimation_outLsel (r : Byte) (i : BitVec 4) (m : Byte) : (s.noteAnimation r i m).outLsel = s.outLsel := rfl
@[simp] theorem noteAnimation_rdataMain (r : Byte) (i : BitVec 4) (m : Byte) : (s.noteAnimation r i m).rdataMain = s.rdataMain := rfl
@[simp] theorem noteAnimation_rdataEdge (r : Byte) (i : BitVec 4) (m : Byte) : (s.noteAnimation r i m).rdataEdge = s.rdataEdge := rfl
@[simp] theorem noteAnimation_lfsr (r : Byte) (i : BitVec 4) (m : Byte) : (s.noteAnimation r i m).lfsr = r := rfl
@[simp] theorem noteAnimation_lastIdx (r : Byte) (i : BitVec 4) (m : Byte) : (s.noteAnimation r i m).lastIdx = some i := rfl
@[simp] theorem noteAnimation_lastMin (r : Byte) (i : BitVec 4) (m : Byte) : (s.noteAnimation r i m).lastMin = some m := rfl
@[simp] theorem noteAnimation_cfg (r : Byte) (i : BitVec 4) (m : Byte) : (s.noteAnimation r i m).cfg = s.cfg := rfl
@[simp] theorem noteAnimation_cfgLoaded (r : Byte) (i : BitVec 4) (m : Byte) : (s.noteAnimation r i m).cfgLoaded = s.cfgLoaded := rfl
@[simp] theorem noteAnimation_ee (r : Byte) (i : BitVec 4) (m : Byte) : (s.noteAnimation r i m).ee = s.ee := rfl
@[simp] theorem noteAnimation_fault (r : Byte) (i : BitVec 4) (m : Byte) : (s.noteAnimation r i m).fault = s.fault := rfl
@[simp] theorem noteAnimation_busy (r : Byte) (i : BitVec 4) (m : Byte) : (s.noteAnimation r i m).busy = s.busy := rfl
@[simp] theorem noteAnimation_issuer (r : Byte) (i : BitVec 4) (m : Byte) : (s.noteAnimation r i m).issuer = s.issuer := rfl
@[simp] theorem noteAnimation_inputs (r : Byte) (i : BitVec 4) (m : Byte) : (s.noteAnimation r i m).inputs = s.inputs := rfl
@[simp] theorem noteAnimation_draws (r : Byte) (i : BitVec 4) (m : Byte) : (s.noteAnimation r i m).draws = s.draws := rfl
@[simp] theorem noteAnimation_params (r : Byte) (i : BitVec 4) (m : Byte) : (s.noteAnimation r i m).params = s.params := rfl

/-! ### `State.putField` -/

@[simp] theorem putField_buf (f : Fin 10) (v : Byte) : (s.putField f v).buf = s.buf := rfl
@[simp] theorem putField_phase (f : Fin 10) (v : Byte) : (s.putField f v).phase = s.phase := rfl
@[simp] theorem putField_dimCnt (f : Fin 10) (v : Byte) : (s.putField f v).dimCnt = s.dimCnt := rfl
@[simp] theorem putField_dimLevel (f : Fin 10) (v : Byte) : (s.putField f v).dimLevel = s.dimLevel := rfl
@[simp] theorem putField_tickCnt (f : Fin 10) (v : Byte) : (s.putField f v).tickCnt = s.tickCnt := rfl
@[simp] theorem putField_debCnt (f : Fin 10) (v : Byte) : (s.putField f v).debCnt = s.debCnt := rfl
@[simp] theorem putField_muxMasked (f : Fin 10) (v : Byte) : (s.putField f v).muxMasked = s.muxMasked := rfl
@[simp] theorem putField_muxPending (f : Fin 10) (v : Byte) : (s.putField f v).muxPending = s.muxPending := rfl
@[simp] theorem putField_outData (f : Fin 10) (v : Byte) : (s.putField f v).outData = s.outData := rfl
@[simp] theorem putField_outDsel (f : Fin 10) (v : Byte) : (s.putField f v).outDsel = s.outDsel := rfl
@[simp] theorem putField_outLsel (f : Fin 10) (v : Byte) : (s.putField f v).outLsel = s.outLsel := rfl
@[simp] theorem putField_rdataMain (f : Fin 10) (v : Byte) : (s.putField f v).rdataMain = s.rdataMain := rfl
@[simp] theorem putField_rdataEdge (f : Fin 10) (v : Byte) : (s.putField f v).rdataEdge = s.rdataEdge := rfl
@[simp] theorem putField_lfsr (f : Fin 10) (v : Byte) : (s.putField f v).lfsr = s.lfsr := rfl
@[simp] theorem putField_lastIdx (f : Fin 10) (v : Byte) : (s.putField f v).lastIdx = s.lastIdx := rfl
@[simp] theorem putField_lastMin (f : Fin 10) (v : Byte) : (s.putField f v).lastMin = s.lastMin := rfl
@[simp] theorem putField_cfg (f : Fin 10) (v : Byte) : (s.putField f v).cfg = s.cfg.set f v := rfl
@[simp] theorem putField_cfgLoaded (f : Fin 10) (v : Byte) : (s.putField f v).cfgLoaded = s.cfgLoaded := rfl
@[simp] theorem putField_ee (f : Fin 10) (v : Byte) : (s.putField f v).ee = s.ee := rfl
@[simp] theorem putField_fault (f : Fin 10) (v : Byte) : (s.putField f v).fault = s.fault := rfl
@[simp] theorem putField_busy (f : Fin 10) (v : Byte) : (s.putField f v).busy = s.busy := rfl
@[simp] theorem putField_issuer (f : Fin 10) (v : Byte) : (s.putField f v).issuer = s.issuer := rfl
@[simp] theorem putField_inputs (f : Fin 10) (v : Byte) : (s.putField f v).inputs = s.inputs := rfl
@[simp] theorem putField_draws (f : Fin 10) (v : Byte) : (s.putField f v).draws = s.draws := rfl
@[simp] theorem putField_params (f : Fin 10) (v : Byte) : (s.putField f v).params = s.params := rfl

/-! ### `State.putFields` -/

@[simp] theorem putFields_buf (fvs : List (Fin 10 × Byte)) : (s.putFields fvs).buf = s.buf := rfl
@[simp] theorem putFields_phase (fvs : List (Fin 10 × Byte)) : (s.putFields fvs).phase = s.phase := rfl
@[simp] theorem putFields_dimCnt (fvs : List (Fin 10 × Byte)) : (s.putFields fvs).dimCnt = s.dimCnt := rfl
@[simp] theorem putFields_dimLevel (fvs : List (Fin 10 × Byte)) : (s.putFields fvs).dimLevel = s.dimLevel := rfl
@[simp] theorem putFields_tickCnt (fvs : List (Fin 10 × Byte)) : (s.putFields fvs).tickCnt = s.tickCnt := rfl
@[simp] theorem putFields_debCnt (fvs : List (Fin 10 × Byte)) : (s.putFields fvs).debCnt = s.debCnt := rfl
@[simp] theorem putFields_muxMasked (fvs : List (Fin 10 × Byte)) : (s.putFields fvs).muxMasked = s.muxMasked := rfl
@[simp] theorem putFields_muxPending (fvs : List (Fin 10 × Byte)) : (s.putFields fvs).muxPending = s.muxPending := rfl
@[simp] theorem putFields_outData (fvs : List (Fin 10 × Byte)) : (s.putFields fvs).outData = s.outData := rfl
@[simp] theorem putFields_outDsel (fvs : List (Fin 10 × Byte)) : (s.putFields fvs).outDsel = s.outDsel := rfl
@[simp] theorem putFields_outLsel (fvs : List (Fin 10 × Byte)) : (s.putFields fvs).outLsel = s.outLsel := rfl
@[simp] theorem putFields_rdataMain (fvs : List (Fin 10 × Byte)) : (s.putFields fvs).rdataMain = s.rdataMain := rfl
@[simp] theorem putFields_rdataEdge (fvs : List (Fin 10 × Byte)) : (s.putFields fvs).rdataEdge = s.rdataEdge := rfl
@[simp] theorem putFields_lfsr (fvs : List (Fin 10 × Byte)) : (s.putFields fvs).lfsr = s.lfsr := rfl
@[simp] theorem putFields_lastIdx (fvs : List (Fin 10 × Byte)) : (s.putFields fvs).lastIdx = s.lastIdx := rfl
@[simp] theorem putFields_lastMin (fvs : List (Fin 10 × Byte)) : (s.putFields fvs).lastMin = s.lastMin := rfl
@[simp] theorem putFields_cfg (fvs : List (Fin 10 × Byte)) : (s.putFields fvs).cfg = fvs.foldl (fun c fv => c.set fv.1 fv.2) s.cfg := rfl
@[simp] theorem putFields_cfgLoaded (fvs : List (Fin 10 × Byte)) : (s.putFields fvs).cfgLoaded = s.cfgLoaded := rfl
@[simp] theorem putFields_ee (fvs : List (Fin 10 × Byte)) : (s.putFields fvs).ee = s.ee := rfl
@[simp] theorem putFields_fault (fvs : List (Fin 10 × Byte)) : (s.putFields fvs).fault = s.fault := rfl
@[simp] theorem putFields_busy (fvs : List (Fin 10 × Byte)) : (s.putFields fvs).busy = s.busy := rfl
@[simp] theorem putFields_issuer (fvs : List (Fin 10 × Byte)) : (s.putFields fvs).issuer = s.issuer := rfl
@[simp] theorem putFields_inputs (fvs : List (Fin 10 × Byte)) : (s.putFields fvs).inputs = s.inputs := rfl
@[simp] theorem putFields_draws (fvs : List (Fin 10 × Byte)) : (s.putFields fvs).draws = s.draws := rfl
@[simp] theorem putFields_params (fvs : List (Fin 10 × Byte)) : (s.putFields fvs).params = s.params := rfl

/-! ### `State.markLoaded` -/

@[simp] theorem markLoaded_buf : (s.markLoaded).buf = s.buf := rfl
@[simp] theorem markLoaded_phase : (s.markLoaded).phase = s.phase := rfl
@[simp] theorem markLoaded_dimCnt : (s.markLoaded).dimCnt = s.dimCnt := rfl
@[simp] theorem markLoaded_dimLevel : (s.markLoaded).dimLevel = s.dimLevel := rfl
@[simp] theorem markLoaded_tickCnt : (s.markLoaded).tickCnt = s.tickCnt := rfl
@[simp] theorem markLoaded_debCnt : (s.markLoaded).debCnt = s.debCnt := rfl
@[simp] theorem markLoaded_muxMasked : (s.markLoaded).muxMasked = s.muxMasked := rfl
@[simp] theorem markLoaded_muxPending : (s.markLoaded).muxPending = s.muxPending := rfl
@[simp] theorem markLoaded_outData : (s.markLoaded).outData = s.outData := rfl
@[simp] theorem markLoaded_outDsel : (s.markLoaded).outDsel = s.outDsel := rfl
@[simp] theorem markLoaded_outLsel : (s.markLoaded).outLsel = s.outLsel := rfl
@[simp] theorem markLoaded_rdataMain : (s.markLoaded).rdataMain = s.rdataMain := rfl
@[simp] theorem markLoaded_rdataEdge : (s.markLoaded).rdataEdge = s.rdataEdge := rfl
@[simp] theorem markLoaded_lfsr : (s.markLoaded).lfsr = s.lfsr := rfl
@[simp] theorem markLoaded_lastIdx : (s.markLoaded).lastIdx = s.lastIdx := rfl
@[simp] theorem markLoaded_lastMin : (s.markLoaded).lastMin = s.lastMin := rfl
@[simp] theorem markLoaded_cfg : (s.markLoaded).cfg = s.cfg := rfl
@[simp] theorem markLoaded_cfgLoaded : (s.markLoaded).cfgLoaded = true := rfl
@[simp] theorem markLoaded_ee : (s.markLoaded).ee = s.ee := rfl
@[simp] theorem markLoaded_fault : (s.markLoaded).fault = s.fault := rfl
@[simp] theorem markLoaded_busy : (s.markLoaded).busy = s.busy := rfl
@[simp] theorem markLoaded_issuer : (s.markLoaded).issuer = s.issuer := rfl
@[simp] theorem markLoaded_inputs : (s.markLoaded).inputs = s.inputs := rfl
@[simp] theorem markLoaded_draws : (s.markLoaded).draws = s.draws := rfl
@[simp] theorem markLoaded_params : (s.markLoaded).params = s.params := rfl

/-! ### `State.setBusy` -/

@[simp] theorem setBusy_buf (p : Option Progress) : (s.setBusy p).buf = s.buf := rfl
@[simp] theorem setBusy_phase (p : Option Progress) : (s.setBusy p).phase = s.phase := rfl
@[simp] theorem setBusy_dimCnt (p : Option Progress) : (s.setBusy p).dimCnt = s.dimCnt := rfl
@[simp] theorem setBusy_dimLevel (p : Option Progress) : (s.setBusy p).dimLevel = s.dimLevel := rfl
@[simp] theorem setBusy_tickCnt (p : Option Progress) : (s.setBusy p).tickCnt = s.tickCnt := rfl
@[simp] theorem setBusy_debCnt (p : Option Progress) : (s.setBusy p).debCnt = s.debCnt := rfl
@[simp] theorem setBusy_muxMasked (p : Option Progress) : (s.setBusy p).muxMasked = s.muxMasked := rfl
@[simp] theorem setBusy_muxPending (p : Option Progress) : (s.setBusy p).muxPending = s.muxPending := rfl
@[simp] theorem setBusy_outData (p : Option Progress) : (s.setBusy p).outData = s.outData := rfl
@[simp] theorem setBusy_outDsel (p : Option Progress) : (s.setBusy p).outDsel = s.outDsel := rfl
@[simp] theorem setBusy_outLsel (p : Option Progress) : (s.setBusy p).outLsel = s.outLsel := rfl
@[simp] theorem setBusy_rdataMain (p : Option Progress) : (s.setBusy p).rdataMain = s.rdataMain := rfl
@[simp] theorem setBusy_rdataEdge (p : Option Progress) : (s.setBusy p).rdataEdge = s.rdataEdge := rfl
@[simp] theorem setBusy_lfsr (p : Option Progress) : (s.setBusy p).lfsr = s.lfsr := rfl
@[simp] theorem setBusy_lastIdx (p : Option Progress) : (s.setBusy p).lastIdx = s.lastIdx := rfl
@[simp] theorem setBusy_lastMin (p : Option Progress) : (s.setBusy p).lastMin = s.lastMin := rfl
@[simp] theorem setBusy_cfg (p : Option Progress) : (s.setBusy p).cfg = s.cfg := rfl
@[simp] theorem setBusy_cfgLoaded (p : Option Progress) : (s.setBusy p).cfgLoaded = s.cfgLoaded := rfl
@[simp] theorem setBusy_ee (p : Option Progress) : (s.setBusy p).ee = s.ee := rfl
@[simp] theorem setBusy_fault (p : Option Progress) : (s.setBusy p).fault = s.fault := rfl
@[simp] theorem setBusy_busy (p : Option Progress) : (s.setBusy p).busy = p := rfl
@[simp] theorem setBusy_issuer (p : Option Progress) : (s.setBusy p).issuer = s.issuer := rfl
@[simp] theorem setBusy_inputs (p : Option Progress) : (s.setBusy p).inputs = s.inputs := rfl
@[simp] theorem setBusy_draws (p : Option Progress) : (s.setBusy p).draws = s.draws := rfl
@[simp] theorem setBusy_params (p : Option Progress) : (s.setBusy p).params = s.params := rfl

/-! ### `State.setInputs` -/

@[simp] theorem setInputs_buf (es : List Event) : (s.setInputs es).buf = s.buf := rfl
@[simp] theorem setInputs_phase (es : List Event) : (s.setInputs es).phase = s.phase := rfl
@[simp] theorem setInputs_dimCnt (es : List Event) : (s.setInputs es).dimCnt = s.dimCnt := rfl
@[simp] theorem setInputs_dimLevel (es : List Event) : (s.setInputs es).dimLevel = s.dimLevel := rfl
@[simp] theorem setInputs_tickCnt (es : List Event) : (s.setInputs es).tickCnt = s.tickCnt := rfl
@[simp] theorem setInputs_debCnt (es : List Event) : (s.setInputs es).debCnt = s.debCnt := rfl
@[simp] theorem setInputs_muxMasked (es : List Event) : (s.setInputs es).muxMasked = s.muxMasked := rfl
@[simp] theorem setInputs_muxPending (es : List Event) : (s.setInputs es).muxPending = s.muxPending := rfl
@[simp] theorem setInputs_outData (es : List Event) : (s.setInputs es).outData = s.outData := rfl
@[simp] theorem setInputs_outDsel (es : List Event) : (s.setInputs es).outDsel = s.outDsel := rfl
@[simp] theorem setInputs_outLsel (es : List Event) : (s.setInputs es).outLsel = s.outLsel := rfl
@[simp] theorem setInputs_rdataMain (es : List Event) : (s.setInputs es).rdataMain = s.rdataMain := rfl
@[simp] theorem setInputs_rdataEdge (es : List Event) : (s.setInputs es).rdataEdge = s.rdataEdge := rfl
@[simp] theorem setInputs_lfsr (es : List Event) : (s.setInputs es).lfsr = s.lfsr := rfl
@[simp] theorem setInputs_lastIdx (es : List Event) : (s.setInputs es).lastIdx = s.lastIdx := rfl
@[simp] theorem setInputs_lastMin (es : List Event) : (s.setInputs es).lastMin = s.lastMin := rfl
@[simp] theorem setInputs_cfg (es : List Event) : (s.setInputs es).cfg = s.cfg := rfl
@[simp] theorem setInputs_cfgLoaded (es : List Event) : (s.setInputs es).cfgLoaded = s.cfgLoaded := rfl
@[simp] theorem setInputs_ee (es : List Event) : (s.setInputs es).ee = s.ee := rfl
@[simp] theorem setInputs_fault (es : List Event) : (s.setInputs es).fault = s.fault := rfl
@[simp] theorem setInputs_busy (es : List Event) : (s.setInputs es).busy = s.busy := rfl
@[simp] theorem setInputs_issuer (es : List Event) : (s.setInputs es).issuer = s.issuer := rfl
@[simp] theorem setInputs_inputs (es : List Event) : (s.setInputs es).inputs = es := rfl
@[simp] theorem setInputs_draws (es : List Event) : (s.setInputs es).draws = s.draws := rfl
@[simp] theorem setInputs_params (es : List Event) : (s.setInputs es).params = s.params := rfl

/-! ### `State.setIssuer` -/

@[simp] theorem setIssuer_buf (a : Agent) : (s.setIssuer a).buf = s.buf := rfl
@[simp] theorem setIssuer_phase (a : Agent) : (s.setIssuer a).phase = s.phase := rfl
@[simp] theorem setIssuer_dimCnt (a : Agent) : (s.setIssuer a).dimCnt = s.dimCnt := rfl
@[simp] theorem setIssuer_dimLevel (a : Agent) : (s.setIssuer a).dimLevel = s.dimLevel := rfl
@[simp] theorem setIssuer_tickCnt (a : Agent) : (s.setIssuer a).tickCnt = s.tickCnt := rfl
@[simp] theorem setIssuer_debCnt (a : Agent) : (s.setIssuer a).debCnt = s.debCnt := rfl
@[simp] theorem setIssuer_muxMasked (a : Agent) : (s.setIssuer a).muxMasked = s.muxMasked := rfl
@[simp] theorem setIssuer_muxPending (a : Agent) : (s.setIssuer a).muxPending = s.muxPending := rfl
@[simp] theorem setIssuer_outData (a : Agent) : (s.setIssuer a).outData = s.outData := rfl
@[simp] theorem setIssuer_outDsel (a : Agent) : (s.setIssuer a).outDsel = s.outDsel := rfl
@[simp] theorem setIssuer_outLsel (a : Agent) : (s.setIssuer a).outLsel = s.outLsel := rfl
@[simp] theorem setIssuer_rdataMain (a : Agent) : (s.setIssuer a).rdataMain = s.rdataMain := rfl
@[simp] theorem setIssuer_rdataEdge (a : Agent) : (s.setIssuer a).rdataEdge = s.rdataEdge := rfl
@[simp] theorem setIssuer_lfsr (a : Agent) : (s.setIssuer a).lfsr = s.lfsr := rfl
@[simp] theorem setIssuer_lastIdx (a : Agent) : (s.setIssuer a).lastIdx = s.lastIdx := rfl
@[simp] theorem setIssuer_lastMin (a : Agent) : (s.setIssuer a).lastMin = s.lastMin := rfl
@[simp] theorem setIssuer_cfg (a : Agent) : (s.setIssuer a).cfg = s.cfg := rfl
@[simp] theorem setIssuer_cfgLoaded (a : Agent) : (s.setIssuer a).cfgLoaded = s.cfgLoaded := rfl
@[simp] theorem setIssuer_ee (a : Agent) : (s.setIssuer a).ee = s.ee := rfl
@[simp] theorem setIssuer_fault (a : Agent) : (s.setIssuer a).fault = s.fault := rfl
@[simp] theorem setIssuer_busy (a : Agent) : (s.setIssuer a).busy = s.busy := rfl
@[simp] theorem setIssuer_issuer (a : Agent) : (s.setIssuer a).issuer = a := rfl
@[simp] theorem setIssuer_inputs (a : Agent) : (s.setIssuer a).inputs = s.inputs := rfl
@[simp] theorem setIssuer_draws (a : Agent) : (s.setIssuer a).draws = s.draws := rfl
@[simp] theorem setIssuer_params (a : Agent) : (s.setIssuer a).params = s.params := rfl

/-! ### `State.takeFault` -/

@[simp] theorem takeFault_buf (k : FaultCode) (w : Word) : (s.takeFault k w).buf = s.buf := rfl
@[simp] theorem takeFault_phase (k : FaultCode) (w : Word) : (s.takeFault k w).phase = s.phase := rfl
@[simp] theorem takeFault_dimCnt (k : FaultCode) (w : Word) : (s.takeFault k w).dimCnt = s.dimCnt := rfl
@[simp] theorem takeFault_dimLevel (k : FaultCode) (w : Word) : (s.takeFault k w).dimLevel = s.dimLevel := rfl
@[simp] theorem takeFault_tickCnt (k : FaultCode) (w : Word) : (s.takeFault k w).tickCnt = s.tickCnt := rfl
@[simp] theorem takeFault_debCnt (k : FaultCode) (w : Word) : (s.takeFault k w).debCnt = s.debCnt := rfl
@[simp] theorem takeFault_muxMasked (k : FaultCode) (w : Word) : (s.takeFault k w).muxMasked = s.muxMasked := rfl
@[simp] theorem takeFault_muxPending (k : FaultCode) (w : Word) : (s.takeFault k w).muxPending = s.muxPending := rfl
@[simp] theorem takeFault_outData (k : FaultCode) (w : Word) : (s.takeFault k w).outData = s.outData := rfl
@[simp] theorem takeFault_outDsel (k : FaultCode) (w : Word) : (s.takeFault k w).outDsel = s.outDsel := rfl
@[simp] theorem takeFault_outLsel (k : FaultCode) (w : Word) : (s.takeFault k w).outLsel = s.outLsel := rfl
@[simp] theorem takeFault_rdataMain (k : FaultCode) (w : Word) : (s.takeFault k w).rdataMain = s.rdataMain := rfl
@[simp] theorem takeFault_rdataEdge (k : FaultCode) (w : Word) : (s.takeFault k w).rdataEdge = s.rdataEdge := rfl
@[simp] theorem takeFault_lfsr (k : FaultCode) (w : Word) : (s.takeFault k w).lfsr = s.lfsr := rfl
@[simp] theorem takeFault_lastIdx (k : FaultCode) (w : Word) : (s.takeFault k w).lastIdx = s.lastIdx := rfl
@[simp] theorem takeFault_lastMin (k : FaultCode) (w : Word) : (s.takeFault k w).lastMin = s.lastMin := rfl
@[simp] theorem takeFault_cfg (k : FaultCode) (w : Word) : (s.takeFault k w).cfg = s.cfg := rfl
@[simp] theorem takeFault_cfgLoaded (k : FaultCode) (w : Word) : (s.takeFault k w).cfgLoaded = s.cfgLoaded := rfl
@[simp] theorem takeFault_ee (k : FaultCode) (w : Word) : (s.takeFault k w).ee = s.ee := rfl
@[simp] theorem takeFault_fault (k : FaultCode) (w : Word) : (s.takeFault k w).fault = some ⟨k, s.issuer, w⟩ := rfl
@[simp] theorem takeFault_busy (k : FaultCode) (w : Word) : (s.takeFault k w).busy = s.busy := rfl
@[simp] theorem takeFault_issuer (k : FaultCode) (w : Word) : (s.takeFault k w).issuer = s.issuer := rfl
@[simp] theorem takeFault_inputs (k : FaultCode) (w : Word) : (s.takeFault k w).inputs = s.inputs := rfl
@[simp] theorem takeFault_draws (k : FaultCode) (w : Word) : (s.takeFault k w).draws = s.draws := rfl
@[simp] theorem takeFault_params (k : FaultCode) (w : Word) : (s.takeFault k w).params = s.params := rfl

/-! ### `State.tearByte` -/

@[simp] theorem tearByte_buf (a : Nat) : (s.tearByte a).buf = s.buf := rfl
@[simp] theorem tearByte_phase (a : Nat) : (s.tearByte a).phase = s.phase := rfl
@[simp] theorem tearByte_dimCnt (a : Nat) : (s.tearByte a).dimCnt = s.dimCnt := rfl
@[simp] theorem tearByte_dimLevel (a : Nat) : (s.tearByte a).dimLevel = s.dimLevel := rfl
@[simp] theorem tearByte_tickCnt (a : Nat) : (s.tearByte a).tickCnt = s.tickCnt := rfl
@[simp] theorem tearByte_debCnt (a : Nat) : (s.tearByte a).debCnt = s.debCnt := rfl
@[simp] theorem tearByte_muxMasked (a : Nat) : (s.tearByte a).muxMasked = s.muxMasked := rfl
@[simp] theorem tearByte_muxPending (a : Nat) : (s.tearByte a).muxPending = s.muxPending := rfl
@[simp] theorem tearByte_outData (a : Nat) : (s.tearByte a).outData = s.outData := rfl
@[simp] theorem tearByte_outDsel (a : Nat) : (s.tearByte a).outDsel = s.outDsel := rfl
@[simp] theorem tearByte_outLsel (a : Nat) : (s.tearByte a).outLsel = s.outLsel := rfl
@[simp] theorem tearByte_rdataMain (a : Nat) : (s.tearByte a).rdataMain = s.rdataMain := rfl
@[simp] theorem tearByte_rdataEdge (a : Nat) : (s.tearByte a).rdataEdge = s.rdataEdge := rfl
@[simp] theorem tearByte_lfsr (a : Nat) : (s.tearByte a).lfsr = s.lfsr := rfl
@[simp] theorem tearByte_lastIdx (a : Nat) : (s.tearByte a).lastIdx = s.lastIdx := rfl
@[simp] theorem tearByte_lastMin (a : Nat) : (s.tearByte a).lastMin = s.lastMin := rfl
@[simp] theorem tearByte_cfg (a : Nat) : (s.tearByte a).cfg = s.cfg := rfl
@[simp] theorem tearByte_cfgLoaded (a : Nat) : (s.tearByte a).cfgLoaded = s.cfgLoaded := rfl
@[simp] theorem tearByte_ee (a : Nat) : (s.tearByte a).ee = s.ee.write a (Config.tornByte s.draws) := rfl
@[simp] theorem tearByte_fault (a : Nat) : (s.tearByte a).fault = s.fault := rfl
@[simp] theorem tearByte_busy (a : Nat) : (s.tearByte a).busy = s.busy := rfl
@[simp] theorem tearByte_issuer (a : Nat) : (s.tearByte a).issuer = s.issuer := rfl
@[simp] theorem tearByte_inputs (a : Nat) : (s.tearByte a).inputs = s.inputs := rfl
@[simp] theorem tearByte_draws (a : Nat) : (s.tearByte a).draws = s.draws + 1 := rfl
@[simp] theorem tearByte_params (a : Nat) : (s.tearByte a).params = s.params := rfl

/-! ### `State.afterReset` -/

@[simp] theorem afterReset_buf : (s.afterReset).buf = Vector.replicate 12 0 := rfl
@[simp] theorem afterReset_phase : (s.afterReset).phase = 0 := rfl
@[simp] theorem afterReset_dimCnt : (s.afterReset).dimCnt = 0 := rfl
@[simp] theorem afterReset_dimLevel : (s.afterReset).dimLevel = 0 := rfl
@[simp] theorem afterReset_tickCnt : (s.afterReset).tickCnt = 0 := rfl
@[simp] theorem afterReset_debCnt : (s.afterReset).debCnt = 0 := rfl
@[simp] theorem afterReset_muxMasked : (s.afterReset).muxMasked = true := rfl
@[simp] theorem afterReset_muxPending : (s.afterReset).muxPending = false := rfl
@[simp] theorem afterReset_outData : (s.afterReset).outData = 0 := rfl
@[simp] theorem afterReset_outDsel : (s.afterReset).outDsel = 0 := rfl
@[simp] theorem afterReset_outLsel : (s.afterReset).outLsel = 0 := rfl
@[simp] theorem afterReset_rdataMain : (s.afterReset).rdataMain = 0 := rfl
@[simp] theorem afterReset_rdataEdge : (s.afterReset).rdataEdge = 0 := rfl
@[simp] theorem afterReset_lfsr : (s.afterReset).lfsr = s.params.lfsrSeed := rfl
@[simp] theorem afterReset_lastIdx : (s.afterReset).lastIdx = none := rfl
@[simp] theorem afterReset_lastMin : (s.afterReset).lastMin = none := rfl
@[simp] theorem afterReset_cfg : (s.afterReset).cfg = State.reset.cfg := rfl
@[simp] theorem afterReset_cfgLoaded : (s.afterReset).cfgLoaded = false := rfl
@[simp] theorem afterReset_ee : (s.afterReset).ee = s.ee := rfl
@[simp] theorem afterReset_fault : (s.afterReset).fault = none := rfl
@[simp] theorem afterReset_busy : (s.afterReset).busy = none := rfl
@[simp] theorem afterReset_issuer : (s.afterReset).issuer = State.reset.issuer := rfl
@[simp] theorem afterReset_inputs : (s.afterReset).inputs = s.inputs := rfl
@[simp] theorem afterReset_draws : (s.afterReset).draws = s.draws := rfl
@[simp] theorem afterReset_params : (s.afterReset).params = s.params := rfl

/-! ### `countTick` -/

@[simp] theorem countTick_buf : (countTick s).buf = s.buf := rfl
@[simp] theorem countTick_phase : (countTick s).phase = s.phase := rfl
@[simp] theorem countTick_dimCnt : (countTick s).dimCnt = s.dimCnt := rfl
@[simp] theorem countTick_dimLevel : (countTick s).dimLevel = s.dimLevel := rfl
@[simp] theorem countTick_tickCnt : (countTick s).tickCnt = s.tickCnt + 1 := rfl
@[simp] theorem countTick_debCnt : (countTick s).debCnt = s.debCnt := rfl
@[simp] theorem countTick_muxMasked : (countTick s).muxMasked = s.muxMasked := rfl
@[simp] theorem countTick_muxPending : (countTick s).muxPending = s.muxPending := rfl
@[simp] theorem countTick_outData : (countTick s).outData = s.outData := rfl
@[simp] theorem countTick_outDsel : (countTick s).outDsel = s.outDsel := rfl
@[simp] theorem countTick_outLsel : (countTick s).outLsel = s.outLsel := rfl
@[simp] theorem countTick_rdataMain : (countTick s).rdataMain = s.rdataMain := rfl
@[simp] theorem countTick_rdataEdge : (countTick s).rdataEdge = s.rdataEdge := rfl
@[simp] theorem countTick_lfsr : (countTick s).lfsr = s.lfsr := rfl
@[simp] theorem countTick_lastIdx : (countTick s).lastIdx = s.lastIdx := rfl
@[simp] theorem countTick_lastMin : (countTick s).lastMin = s.lastMin := rfl
@[simp] theorem countTick_cfg : (countTick s).cfg = s.cfg := rfl
@[simp] theorem countTick_cfgLoaded : (countTick s).cfgLoaded = s.cfgLoaded := rfl
@[simp] theorem countTick_ee : (countTick s).ee = s.ee := rfl
@[simp] theorem countTick_fault : (countTick s).fault = s.fault := rfl
@[simp] theorem countTick_busy : (countTick s).busy = s.busy := rfl
@[simp] theorem countTick_issuer : (countTick s).issuer = s.issuer := rfl
@[simp] theorem countTick_inputs : (countTick s).inputs = s.inputs := rfl
@[simp] theorem countTick_draws : (countTick s).draws = s.draws := rfl
@[simp] theorem countTick_params : (countTick s).params = s.params := rfl

/-! ### `decayDebounce` -/

@[simp] theorem decayDebounce_buf : (decayDebounce s).buf = s.buf := rfl
@[simp] theorem decayDebounce_phase : (decayDebounce s).phase = s.phase := rfl
@[simp] theorem decayDebounce_dimCnt : (decayDebounce s).dimCnt = s.dimCnt := rfl
@[simp] theorem decayDebounce_dimLevel : (decayDebounce s).dimLevel = s.dimLevel := rfl
@[simp] theorem decayDebounce_tickCnt : (decayDebounce s).tickCnt = s.tickCnt := rfl
@[simp] theorem decayDebounce_debCnt : (decayDebounce s).debCnt = if s.debCnt = 0 then 0 else s.debCnt - 1 := rfl
@[simp] theorem decayDebounce_muxMasked : (decayDebounce s).muxMasked = s.muxMasked := rfl
@[simp] theorem decayDebounce_muxPending : (decayDebounce s).muxPending = s.muxPending := rfl
@[simp] theorem decayDebounce_outData : (decayDebounce s).outData = s.outData := rfl
@[simp] theorem decayDebounce_outDsel : (decayDebounce s).outDsel = s.outDsel := rfl
@[simp] theorem decayDebounce_outLsel : (decayDebounce s).outLsel = s.outLsel := rfl
@[simp] theorem decayDebounce_rdataMain : (decayDebounce s).rdataMain = s.rdataMain := rfl
@[simp] theorem decayDebounce_rdataEdge : (decayDebounce s).rdataEdge = s.rdataEdge := rfl
@[simp] theorem decayDebounce_lfsr : (decayDebounce s).lfsr = s.lfsr := rfl
@[simp] theorem decayDebounce_lastIdx : (decayDebounce s).lastIdx = s.lastIdx := rfl
@[simp] theorem decayDebounce_lastMin : (decayDebounce s).lastMin = s.lastMin := rfl
@[simp] theorem decayDebounce_cfg : (decayDebounce s).cfg = s.cfg := rfl
@[simp] theorem decayDebounce_cfgLoaded : (decayDebounce s).cfgLoaded = s.cfgLoaded := rfl
@[simp] theorem decayDebounce_ee : (decayDebounce s).ee = s.ee := rfl
@[simp] theorem decayDebounce_fault : (decayDebounce s).fault = s.fault := rfl
@[simp] theorem decayDebounce_busy : (decayDebounce s).busy = s.busy := rfl
@[simp] theorem decayDebounce_issuer : (decayDebounce s).issuer = s.issuer := rfl
@[simp] theorem decayDebounce_inputs : (decayDebounce s).inputs = s.inputs := rfl
@[simp] theorem decayDebounce_draws : (decayDebounce s).draws = s.draws := rfl
@[simp] theorem decayDebounce_params : (decayDebounce s).params = s.params := rfl

/-! ### `State.putResult` -/

@[simp] theorem putResult_buf (v : Byte) : (s.putResult v).buf = s.buf := by
  cases h : s.issuer <;> simp [State.putResult, h]
@[simp] theorem putResult_phase (v : Byte) : (s.putResult v).phase = s.phase := by
  cases h : s.issuer <;> simp [State.putResult, h]
@[simp] theorem putResult_dimCnt (v : Byte) : (s.putResult v).dimCnt = s.dimCnt := by
  cases h : s.issuer <;> simp [State.putResult, h]
@[simp] theorem putResult_dimLevel (v : Byte) : (s.putResult v).dimLevel = s.dimLevel := by
  cases h : s.issuer <;> simp [State.putResult, h]
@[simp] theorem putResult_tickCnt (v : Byte) : (s.putResult v).tickCnt = s.tickCnt := by
  cases h : s.issuer <;> simp [State.putResult, h]
@[simp] theorem putResult_debCnt (v : Byte) : (s.putResult v).debCnt = s.debCnt := by
  cases h : s.issuer <;> simp [State.putResult, h]
@[simp] theorem putResult_muxMasked (v : Byte) : (s.putResult v).muxMasked = s.muxMasked := by
  cases h : s.issuer <;> simp [State.putResult, h]
@[simp] theorem putResult_muxPending (v : Byte) : (s.putResult v).muxPending = s.muxPending := by
  cases h : s.issuer <;> simp [State.putResult, h]
@[simp] theorem putResult_outData (v : Byte) : (s.putResult v).outData = s.outData := by
  cases h : s.issuer <;> simp [State.putResult, h]
@[simp] theorem putResult_outDsel (v : Byte) : (s.putResult v).outDsel = s.outDsel := by
  cases h : s.issuer <;> simp [State.putResult, h]
@[simp] theorem putResult_outLsel (v : Byte) : (s.putResult v).outLsel = s.outLsel := by
  cases h : s.issuer <;> simp [State.putResult, h]
@[simp] theorem putResult_rdataMain (v : Byte) : (s.putResult v).rdataMain = if s.issuer = .main then v else s.rdataMain := by
  cases h : s.issuer <;> simp [State.putResult, h]
@[simp] theorem putResult_rdataEdge (v : Byte) : (s.putResult v).rdataEdge = if s.issuer = .edge then v else s.rdataEdge := by
  cases h : s.issuer <;> simp [State.putResult, h]
@[simp] theorem putResult_lfsr (v : Byte) : (s.putResult v).lfsr = s.lfsr := by
  cases h : s.issuer <;> simp [State.putResult, h]
@[simp] theorem putResult_lastIdx (v : Byte) : (s.putResult v).lastIdx = s.lastIdx := by
  cases h : s.issuer <;> simp [State.putResult, h]
@[simp] theorem putResult_lastMin (v : Byte) : (s.putResult v).lastMin = s.lastMin := by
  cases h : s.issuer <;> simp [State.putResult, h]
@[simp] theorem putResult_cfg (v : Byte) : (s.putResult v).cfg = s.cfg := by
  cases h : s.issuer <;> simp [State.putResult, h]
@[simp] theorem putResult_cfgLoaded (v : Byte) : (s.putResult v).cfgLoaded = s.cfgLoaded := by
  cases h : s.issuer <;> simp [State.putResult, h]
@[simp] theorem putResult_ee (v : Byte) : (s.putResult v).ee = s.ee := by
  cases h : s.issuer <;> simp [State.putResult, h]
@[simp] theorem putResult_fault (v : Byte) : (s.putResult v).fault = s.fault := by
  cases h : s.issuer <;> simp [State.putResult, h]
@[simp] theorem putResult_busy (v : Byte) : (s.putResult v).busy = s.busy := by
  cases h : s.issuer <;> simp [State.putResult, h]
@[simp] theorem putResult_issuer (v : Byte) : (s.putResult v).issuer = s.issuer := by
  cases h : s.issuer <;> simp [State.putResult, h]
@[simp] theorem putResult_inputs (v : Byte) : (s.putResult v).inputs = s.inputs := by
  cases h : s.issuer <;> simp [State.putResult, h]
@[simp] theorem putResult_draws (v : Byte) : (s.putResult v).draws = s.draws := by
  cases h : s.issuer <;> simp [State.putResult, h]
@[simp] theorem putResult_params (v : Byte) : (s.putResult v).params = s.params := by
  cases h : s.issuer <;> simp [State.putResult, h]

end Sys2Proof.Machine
end

