-- ==== Sys2Proof/Laws/Animation.lean ====
section
/-! SUPPORT. What the ring, its lanes and the flicker generator are, bit by bit (R11, R163), and what the compute step and a lane
sub-step do (R160, R161). -/

namespace Sys2Proof.Machine

variable (p : Config.Params) (P : LitSet)

/-- The one bit of `onehot`. -/
theorem getLsbD_onehot (n k b : Nat) : (onehot n k).getLsbD b = (decide (b < n) && decide (k = b)) := by
  rw [Bool.eq_iff_iff]
  simp only [onehot, BitVec.getLsbD_shiftLeft, BitVec.getLsbD_one, Bool.and_eq_true, Bool.not_eq_true',
    decide_eq_true_eq, decide_eq_false_iff_not]
  omega

/-- Bits of a fold that ors in one bit per lit position. -/
theorem getLsbD_ringFold (qs : List (Fin 60)) (acc : BitVec 64) (b : Nat) (hb : b < 64) :
    (qs.foldl (fun acc q => if P q then acc ||| onehot 64 p.posMap[q].val else acc) acc).getLsbD b = true ↔
      acc.getLsbD b = true ∨ ∃ q ∈ qs, P q = true ∧ p.posMap[q].val = b := by
  induction qs generalizing acc with
  | nil => simp
  | cons q rest ih =>
    rw [List.foldl_cons, ih]
    by_cases hq : P q = true
    · rw [if_pos hq, BitVec.getLsbD_or, getLsbD_onehot]
      simp [-BitVec.getLsbD_eq_getElem, hq, hb, or_assoc]
    · simp [hq]

/-- Bit `b` of the ring is lit exactly when some lit position is mapped to it (R11). -/
theorem getLsbD_ring (b : Nat) (hb : b < 64) :
    (ring p P).getLsbD b = true ↔ ∃ q, P q = true ∧ p.posMap[q].val = b := by
  rw [ring, getLsbD_ringFold p P _ _ b hb]
  simp

/-- Bit `b` of lane `j` is ring bit `8j + b` (R11). -/
theorem getLsbD_laneOf (r : BitVec 64) (j b : Nat) (hb : b < 8) : (laneOf r j).getLsbD b = r.getLsbD (8 * j + b) := by
  simp [laneOf, hb]

/-- The lanes of a ring, by number. -/
theorem lanesOf_get (r : BitVec 64) (j : Fin 8) : (lanesOf r)[j] = laneOf r j.val := by
  fin_cases j <;> rfl

/-- One flicker step gives a value below 60 whatever the taps (R163, R32). -/
theorem lfsrStep_lt (taps r : Byte) : (lfsrStep taps r).toNat < 60 := by
  unfold lfsrStep
  rw [BitVec.toNat_umod]
  exact Nat.mod_lt _ (by decide)

/-- Every animation leaves the generator alone or steps it once (R160). -/
theorem animate_generator (i : BitVec 4) (h m sec : Nat) (t r : Byte) :
    (animate p i h m sec t r).2 = r ∨ (animate p i h m sec t r).2 = lfsrStep p.taps r := by
  unfold animate anim14 anim15
  split <;> (try split) <;> first | exact .inl rfl | exact .inr rfl

variable (s : State)

/-- Everything the compute step can do. -/
theorem animCompute_cases (i : BitVec 4) (h m sec : Byte) :
    (animSkips i m s = true ∧ animCompute i h m sec s = s.noteAnimation s.lfsr i m) ∨
    (animSkips i m s = false ∧ animCompute i h m sec s =
      (s.noteAnimation (animate s.params i h.toNat m.toNat sec.toNat s.tickCnt s.lfsr).2 i m).setBusy
        (some (.anim 0 (lanesOf (ring s.params (animate s.params i h.toNat m.toNat sec.toNat s.tickCnt s.lfsr).1))))) := by
  cases hs : animSkips i m s with
  | true => exact .inl ⟨rfl, by rw [animCompute, if_pos hs]⟩
  | false => exact .inr ⟨rfl, by rw [animCompute, if_neg (by simp [hs])]⟩

/-- The cell of lane `j` is cell `4 + j`; no digit cell is one. -/
@[simp] theorem laneCell_val (j : Fin 8) : (laneCell j).val = 4 + j.val := rfl

/-- A lane sub-step writes its own cell and MAIN's position, nothing else. -/
theorem laneStep_eq (j : Fin 8) (lanes : Vector Byte 8) :
    laneStep j lanes s = { s with
      buf := s.buf.set (laneCell j) lanes[j]
      busy := if j = 7 then none else some (.anim (j + 1) lanes) } := rfl

end Sys2Proof.Machine
end

