-- ==== Sys2Proof/Laws/Encoding.lean ====
section
/-! SUPPORT. The fields of a packed word (R80) and of each command's word (R82). -/

namespace Sys2Proof

variable (op sel : BitVec 4) (b2 b1 b0 : Byte)

@[simp] theorem opField_packWord : opField (packWord op sel b2 b1 b0) = op := by
  ext k hk
  simp only [opField, packWord, BitVec.getElem_extractLsb', BitVec.getLsbD_append]
  simp [show ¬ (28 + k < 8) by omega, show ¬ (28 + k - 8 < 8) by omega, show ¬ (28 + k - 8 - 8 < 8) by omega,
    show ¬ (28 + k - 8 - 8 - 8 < 4) by omega, show 28 + k - 8 - 8 - 8 - 4 = k by omega, BitVec.getLsbD_eq_getElem hk]

@[simp] theorem selField_packWord : selField (packWord op sel b2 b1 b0) = sel := by
  ext k hk
  simp only [selField, packWord, BitVec.getElem_extractLsb', BitVec.getLsbD_append]
  simp [show ¬ (24 + k < 8) by omega, show ¬ (24 + k - 8 < 8) by omega, show ¬ (24 + k - 8 - 8 < 8) by omega,
    show 24 + k - 8 - 8 - 8 = k by omega, BitVec.getLsbD_eq_getElem hk]
  omega

@[simp] theorem b2Field_packWord : b2Field (packWord op sel b2 b1 b0) = b2 := by
  ext k hk
  simp only [b2Field, packWord, BitVec.getElem_extractLsb', BitVec.getLsbD_append]
  simp [show ¬ (16 + k < 8) by omega, show ¬ (16 + k - 8 < 8) by omega, show 16 + k - 8 - 8 = k by omega,
    BitVec.getLsbD_eq_getElem hk]
  omega

@[simp] theorem b1Field_packWord : b1Field (packWord op sel b2 b1 b0) = b1 := by
  ext k hk
  simp only [b1Field, packWord, BitVec.getElem_extractLsb', BitVec.getLsbD_append]
  simp [show ¬ (8 + k < 8) by omega, show 8 + k - 8 = k by omega, BitVec.getLsbD_eq_getElem hk]
  omega

@[simp] theorem b0Field_packWord : b0Field (packWord op sel b2 b1 b0) = b0 := by
  ext k hk
  simp only [b0Field, packWord, BitVec.getElem_extractLsb', BitVec.getLsbD_append]
  simp [BitVec.getLsbD_eq_getElem hk]
  omega

/-- The reserved words hold their opcode in `OP`. -/
@[simp] theorem opField_reserved (r : BitVec 28) : opField (op ++ r) = op := by
  ext k hk
  simp only [opField, BitVec.getElem_extractLsb', BitVec.getLsbD_append]
  simp [show ¬ (28 + k < 28) by omega, show 28 + k - 28 = k by omega, BitVec.getLsbD_eq_getElem hk]

/-- The reserved words hold their other bits in bits [27:0]. -/
@[simp] theorem rest_reserved (r : BitVec 28) : (op ++ r).extractLsb' 0 28 = r := by
  ext k hk
  simp only [BitVec.getElem_extractLsb', BitVec.getLsbD_append]
  simp [BitVec.getLsbD_eq_getElem hk]
  omega

/-- A command is accepted exactly when the fields it does not use are zero (R84). -/
@[simp] theorem ifZero_eq_ok (z : Bool) (i j : Instr) : Decoded.ifZero op z i = .ok j ↔ z = true ∧ i = j := by
  cases z <;> simp [Decoded.ifZero]

/-- It is rejected by name exactly when one of them is not (R84). -/
@[simp] theorem ifZero_eq_reservedField (o : BitVec 4) (z : Bool) (i : Instr) :
    Decoded.ifZero op z i = .reservedField o ↔ z = false ∧ op = o := by
  cases z <;> simp [Decoded.ifZero]

/-- The sixteen opcodes, for case splits on `OP`. -/
theorem opcode_cases : ∀ o : BitVec 4, o = 0 ∨ o = 1 ∨ o = 2 ∨ o = 3 ∨ o = 4 ∨ o = 5 ∨ o = 6 ∨ o = 7 ∨ o = 8 ∨ o = 9 ∨
    o = 10 ∨ o = 11 ∨ o = 12 ∨ o = 13 ∨ o = 14 ∨ o = 15 := by decide

/-- A word is its opcode and its other 28 bits side by side. -/
theorem opField_append_rest (w : Word) : (opField w ++ w.extractLsb' 0 28 : BitVec 32) = w := by
  ext k hk
  simp only [opField]
  rw [← BitVec.getLsbD_eq_getElem, ← BitVec.getLsbD_eq_getElem]
  simp only [BitVec.getLsbD_append, BitVec.getLsbD_extractLsb']
  by_cases h : k < 28
  · simp [h]
  · simp [h, show k - 28 < 4 by omega, show 28 + (k - 28) = k by omega]

/-- A word is its five fields side by side. -/
theorem packWord_fields (w : Word) : packWord (opField w) (selField w) (b2Field w) (b1Field w) (b0Field w) = w := by
  ext k hk
  simp only [packWord, opField, selField, b2Field, b1Field, b0Field]
  rw [← BitVec.getLsbD_eq_getElem, ← BitVec.getLsbD_eq_getElem]
  simp only [BitVec.getLsbD_append, BitVec.getLsbD_extractLsb']
  by_cases h0 : k < 8
  · simp [h0]
  by_cases h1 : k < 16
  · simp [h0, show k - 8 < 8 by omega, show 8 + (k - 8) = k by omega]
  by_cases h2 : k < 24
  · simp [h0, show ¬ (k - 8 < 8) by omega, show k - 8 - 8 < 8 by omega, show 16 + (k - 8 - 8) = k by omega]
  by_cases h3 : k < 28
  · simp [h0, show ¬ (k - 8 < 8) by omega, show ¬ (k - 8 - 8 < 8) by omega, show k - 8 - 8 - 8 < 4 by omega,
      show 24 + (k - 8 - 8 - 8) = k by omega]
  · simp [h0, show ¬ (k - 8 < 8) by omega, show ¬ (k - 8 - 8 < 8) by omega, show ¬ (k - 8 - 8 - 8 < 4) by omega,
      show k - 8 - 8 - 8 - 4 < 4 by omega, show 28 + (k - 8 - 8 - 8 - 4) = k by omega]

/-- A word that decodes to a command holds that command's opcode. -/
theorem opcode_of_decode {w : Word} {i : Instr} (h : decode w = .ok i) : i.opcode = opField w := by
  rcases opcode_cases (opField w) with ho | ho | ho | ho | ho | ho | ho | ho | ho | ho | ho | ho | ho | ho | ho | ho <;>
    simp [decode, ho] at h <;> obtain ⟨_, rfl⟩ := h <;> rw [ho] <;> rfl

/-- A rejection names the word's own opcode, which is not reserved and not `ANIM_STEP`. -/
theorem opcode_of_rejected {w : Word} {op : BitVec 4} (h : decode w = .reservedField op) : op = opField w := by
  rcases opcode_cases (opField w) with ho | ho | ho | ho | ho | ho | ho | ho | ho | ho | ho | ho | ho | ho | ho | ho <;>
    simp [decode, ho] at h <;> rw [ho, ← h.2] <;> rfl

end Sys2Proof
end

