-- ==== Sys2Proof/Laws/Checks.lean ====
section
/-! SUPPORT. What the checks before a command's effect can do: who passes them, and that a command either runs its effect or
takes one fault (R85, R86, R87, R261). -/

namespace Sys2Proof.Machine

/-! ### Operand forms in range are the operand's own number -/

@[simp] theorem cellOf_val {c : BitVec 4} (h : c.toNat < 12) : (cellOf c).val = c.toNat := Nat.mod_eq_of_lt h

@[simp] theorem fieldOf_val {f : BitVec 4} (h : f.toNat < 10) : (fieldOf f).val = f.toNat := Nat.mod_eq_of_lt h

@[simp] theorem groupOf_val {g : BitVec 4} (h : g.toNat < 6) : (groupOf g).val = g.toNat := Nat.mod_eq_of_lt h

@[simp] theorem levelOf_val {l : Byte} (h : l.toNat < 10) : (levelOf l).val = l.toNat := Nat.mod_eq_of_lt h

theorem cellOf_eq {c : BitVec 4} (h : c.toNat < 12) : cellOf c = ⟨c.toNat, h⟩ := Fin.ext (cellOf_val h)

theorem fieldOf_eq {f : BitVec 4} (h : f.toNat < 10) : fieldOf f = ⟨f.toNat, h⟩ := Fin.ext (fieldOf_val h)

theorem groupOf_eq {g : BitVec 4} (h : g.toNat < 6) : groupOf g = ⟨g.toNat, h⟩ := Fin.ext (groupOf_val h)

theorem levelOf_eq {l : Byte} (h : l.toNat < 10) : levelOf l = ⟨l.toNat, h⟩ := Fin.ext (levelOf_val h)

/-- The machine's range table and the legal values of WellFormed.lean say the same of each field. -/
theorem fieldRange_iff_legal (f : Fin 10) (v : Nat) :
    ((fieldRange f).1 ≤ v ∧ v ≤ (fieldRange f).2) ↔ legalFieldValue f.val v = true := by
  fin_cases f <;> simp [fieldRange, legalFieldValue]

theorem legalFieldValue_field_lt {f v : Nat} (h : legalFieldValue f v = true) : f < 10 := by
  unfold legalFieldValue at h
  split at h <;> first | omega | cases h

/-- The machine's range check accepts exactly the well-formed commands, reserved words apart (R85). -/
theorem operandsInRange_eq_wellFormed (i : Instr) (h : isReserved i.opcode = false) :
    operandsInRange i = i.wellFormed := by
  cases i with
  | reservedE r => simp [isReserved, Instr.opcode] at h
  | reservedF r => simp [isReserved, Instr.opcode] at h
  | cfgWr f v =>
    rw [Bool.eq_iff_iff]
    simp only [operandsInRange, Instr.wellFormed, Bool.and_eq_true, decide_eq_true_eq]
    constructor
    · rintro ⟨⟨hf, h1⟩, h2⟩
      have := (fieldRange_iff_legal (fieldOf f) v.toNat).1 ⟨h1, h2⟩
      rwa [fieldOf_val hf] at this
    · intro hl
      have hf := legalFieldValue_field_lt hl
      rw [← fieldOf_val hf] at hl
      exact ⟨⟨hf, ((fieldRange_iff_legal _ _).2 hl).1⟩, ((fieldRange_iff_legal _ _).2 hl).2⟩
  | _ => simp [operandsInRange, Instr.wellFormed, Nat.lt_succ_iff]

/-! ### The order of the checks (R87, R262) -/

/-- A command passes every check exactly when it is not reserved, its agent may issue it, its operands are in range, and a
configuration is loaded if it needs one. -/
theorem admission_eq_none_iff (i : Instr) (s : State) :
    admission i s = none ↔ isReserved i.opcode = false ∧ mayIssue i.opcode s.issuer = true ∧ operandsInRange i = true ∧
      (needsConfig i = true → s.cfgLoaded = true) := by
  unfold admission
  cases isReserved i.opcode <;> cases mayIssue i.opcode s.issuer <;> cases operandsInRange i <;>
    cases needsConfig i <;> cases s.cfgLoaded <;> simp

variable (s : State)

theorem admission_tick : admission .tick s = none ↔ s.issuer = .timer := by
  rw [admission_eq_none_iff]
  cases s.issuer <;> simp [isReserved, mayIssue, agentsOf, Instr.opcode, operandsInRange, needsConfig]

theorem admission_bufWr (c : BitVec 4) (v : Byte) :
    admission (.bufWr c v) s = none ↔ s.issuer = .main ∧ c.toNat < 12 := by
  rw [admission_eq_none_iff]
  cases s.issuer <;> simp [isReserved, mayIssue, agentsOf, Instr.opcode, operandsInRange, needsConfig]

theorem admission_bufRd (c : BitVec 4) : admission (.bufRd c) s = none ↔ s.issuer = .main ∧ c.toNat < 12 := by
  rw [admission_eq_none_iff]
  cases s.issuer <;> simp [isReserved, mayIssue, agentsOf, Instr.opcode, operandsInRange, needsConfig]

theorem admission_dimSet (l : Byte) : admission (.dimSet l) s = none ↔ s.issuer = .main ∧ l.toNat < 10 := by
  rw [admission_eq_none_iff]
  cases s.issuer <;> simp [isReserved, mayIssue, agentsOf, Instr.opcode, operandsInRange, needsConfig]

theorem admission_muxMask : admission .muxMask s = none ↔ s.issuer = .main := by
  rw [admission_eq_none_iff]
  cases s.issuer <;> simp [isReserved, mayIssue, agentsOf, Instr.opcode, operandsInRange, needsConfig]

theorem admission_muxUnmask : admission .muxUnmask s = none ↔ s.issuer = .main := by
  rw [admission_eq_none_iff]
  cases s.issuer <;> simp [isReserved, mayIssue, agentsOf, Instr.opcode, operandsInRange, needsConfig]

theorem admission_tickRd : admission .tickRd s = none ↔ s.issuer = .main ∨ s.issuer = .edge := by
  rw [admission_eq_none_iff]
  cases s.issuer <;> simp [isReserved, mayIssue, agentsOf, Instr.opcode, operandsInRange, needsConfig]

theorem admission_debLoad (v : Byte) : admission (.debLoad v) s = none ↔ s.issuer = .main ∨ s.issuer = .edge := by
  rw [admission_eq_none_iff]
  cases s.issuer <;> simp [isReserved, mayIssue, agentsOf, Instr.opcode, operandsInRange, needsConfig]

theorem admission_debRd : admission .debRd s = none ↔ s.issuer = .main ∨ s.issuer = .edge := by
  rw [admission_eq_none_iff]
  cases s.issuer <;> simp [isReserved, mayIssue, agentsOf, Instr.opcode, operandsInRange, needsConfig]

theorem admission_animStep (i : BitVec 4) (h m sec : Byte) :
    admission (.animStep i h m sec) s = none ↔
      s.issuer = .main ∧ h.toNat < 24 ∧ m.toNat < 60 ∧ sec.toNat < 60 := by
  rw [admission_eq_none_iff]
  cases s.issuer <;> simp [isReserved, mayIssue, agentsOf, Instr.opcode, operandsInRange, needsConfig, and_assoc]

theorem admission_cfgLoad : admission .cfgLoad s = none ↔ s.issuer = .main := by
  rw [admission_eq_none_iff]
  cases s.issuer <;> simp [isReserved, mayIssue, agentsOf, Instr.opcode, operandsInRange, needsConfig]

theorem admission_cfgRd (f : BitVec 4) :
    admission (.cfgRd f) s = none ↔ s.issuer = .main ∧ f.toNat < 10 ∧ s.cfgLoaded = true := by
  rw [admission_eq_none_iff]
  cases s.issuer <;> simp [isReserved, mayIssue, agentsOf, Instr.opcode, operandsInRange, needsConfig]

theorem admission_cfgWr (f : BitVec 4) (v : Byte) :
    admission (.cfgWr f v) s = none ↔
      s.issuer = .main ∧ legalFieldValue f.toNat v.toNat = true ∧ s.cfgLoaded = true := by
  rw [admission_eq_none_iff, operandsInRange_eq_wellFormed _ (by simp [isReserved, Instr.opcode])]
  cases s.issuer <;> simp [isReserved, mayIssue, agentsOf, Instr.opcode, Instr.wellFormed, needsConfig]

theorem admission_cfgCommit (g : BitVec 4) :
    admission (.cfgCommit g) s = none ↔ s.issuer = .main ∧ g.toNat < 6 ∧ s.cfgLoaded = true := by
  rw [admission_eq_none_iff]
  cases s.issuer <;> simp [isReserved, mayIssue, agentsOf, Instr.opcode, operandsInRange, needsConfig]

theorem admission_reservedE (r : BitVec 28) : admission (.reservedE r) s = some .illegalOpcode := rfl

theorem admission_reservedF (r : BitVec 28) : admission (.reservedF r) s = some .illegalOpcode := rfl

/-! ### Running the checks -/

variable {s} {i : Instr} {effect : State → Host.Outcome State Fault Refusal}

/-- A command that passes the checks does its effect and nothing else. -/
theorem checked_of_admitted (h : admission i s = none) : checked i s effect = effect s := by
  rw [checked, h]

/-- A command that does not pass takes its fault and does nothing else. -/
theorem checked_of_refused {code : FaultCode} (h : admission i s = some code) :
    checked i s effect = .next (s.takeFault code (encode i)) := by
  rw [checked, h]

/-- Everything a checked command can do. -/
theorem checked_cases (i : Instr) (s : State) (effect : State → Host.Outcome State Fault Refusal) :
    (admission i s = none ∧ checked i s effect = effect s) ∨
    (∃ code, admission i s = some code ∧ checked i s effect = .next (s.takeFault code (encode i))) := by
  cases h : admission i s with
  | none => exact .inl ⟨rfl, checked_of_admitted h⟩
  | some code => exact .inr ⟨code, rfl, checked_of_refused h⟩

end Sys2Proof.Machine
end

