-- ==== Sys2Proof/Laws/Memory.lean ====
section
/-! SUPPORT. The laws of the EEPROM's bytes: read after write, the canonical form every operation keeps, and that canonical
memories with the same bytes are the same data. -/

namespace Sys2Proof.Machine

variable (m : Memory) (a b : Nat) (v : Byte)

@[simp] theorem read_nil : Memory.read [] a = Config.erasedByte := rfl

@[simp] theorem read_listed (rest : Memory) :
    Memory.read ((b, v) :: rest) a = if a = b then v else Memory.read rest a := rfl

/-- Every address listed in `m` is above `a`. -/
abbrev AllAbove (a : Nat) (m : Memory) : Prop := ∀ c ∈ m, a < c.1

theorem wf_listed_iff (rest : Memory) :
    Memory.wf ((b, v) :: rest) = true ↔ v ≠ Config.erasedByte ∧ AllAbove b rest ∧ Memory.wf rest = true := by
  simp [Memory.wf, AllAbove, and_assoc]

/-- An address below every listed one reads as the erased byte. -/
theorem read_of_allAbove {m : Memory} {a : Nat} (h : AllAbove a m) : m.read a = Config.erasedByte := by
  induction m with
  | nil => rfl
  | cons c rest ih =>
    have hc : a < c.1 := h c (by simp)
    have hr : AllAbove a rest := fun d hd => h d (by simp [hd])
    rw [Memory.read, if_neg (by omega), ih hr]

theorem allAbove_mono {m : Memory} {a b : Nat} (h : AllAbove b m) (hab : a ≤ b) : AllAbove a m :=
  fun c hc => lt_of_le_of_lt hab (h c hc)

/-- Putting a cell in front of a memory that lies above it reads as the cell's byte at its address, and as the memory
elsewhere. -/
theorem read_cons {m : Memory} {b : Nat} (hb : AllAbove b m) :
    Memory.read (Memory.cons b v m) a = if a = b then v else m.read a := by
  unfold Memory.cons
  split
  · next hv =>
    split
    · next hab => subst hab; rw [read_of_allAbove hb, hv]
    · rfl
  · rfl

theorem wf_cons {m : Memory} {b : Nat} (hm : m.wf = true) (hb : AllAbove b m) : (Memory.cons b v m).wf = true := by
  unfold Memory.cons
  split
  · exact hm
  · next hv => exact (wf_listed_iff _ _ _).2 ⟨hv, hb, hm⟩

theorem mem_cons {m : Memory} {c : Host.Cell} (h : c ∈ Memory.cons b v m) : c = (b, v) ∨ c ∈ m := by
  unfold Memory.cons at h
  split at h
  · exact .inr h
  · simpa using h

/-- A write lists no address but its own and those listed before. -/
theorem mem_write {m : Memory} {c : Host.Cell} (h : c ∈ m.write a v) : c.1 = a ∨ c ∈ m := by
  induction m with
  | nil =>
    rcases mem_cons _ _ h with rfl | h
    · exact .inl rfl
    · cases h
  | cons d rest ih =>
    rw [Memory.write] at h
    split at h
    · rcases mem_cons _ _ h with rfl | h
      · exact .inl rfl
      · exact .inr h
    · split at h
      · rcases mem_cons _ _ h with rfl | h
        · exact .inl rfl
        · exact .inr (by simp [h])
      · rcases List.mem_cons.1 h with rfl | h
        · exact .inr (by simp)
        · rcases ih h with h | h
          · exact .inl h
          · exact .inr (by simp [h])

/-- A write keeps the canonical form. -/
@[simp] theorem wf_write {m : Memory} (hm : m.wf = true) : (m.write a v).wf = true := by
  induction m with
  | nil => exact wf_cons v rfl (by simp)
  | cons d rest ih =>
    obtain ⟨b, u⟩ := d
    obtain ⟨hu, hb, hr⟩ := (wf_listed_iff _ _ _).1 hm
    rw [Memory.write]
    split
    · next hab =>
      refine wf_cons v hm fun c hc => ?_
      rcases List.mem_cons.1 hc with rfl | hc
      · exact hab
      · exact lt_trans hab (hb c hc)
    · next hab =>
      split
      · next heq => exact wf_cons v hr (heq ▸ hb)
      · next hne =>
        refine (wf_listed_iff _ _ _).2 ⟨hu, fun c hc => ?_, ih hr⟩
        rcases mem_write a v hc with h | h
        · omega
        · exact hb c h

/-- Read after write: the byte written at its own address, the old byte at every other. -/
theorem read_write {m : Memory} (hm : m.wf = true) : (m.write a v).read b = if b = a then v else m.read b := by
  induction m with
  | nil => simp [Memory.write, read_cons]
  | cons d rest ih =>
    obtain ⟨c, u⟩ := d
    obtain ⟨_, hc, hr⟩ := (wf_listed_iff _ _ _).1 hm
    rw [Memory.write]
    split
    · next hac =>
      refine read_cons b v fun e he => ?_
      rcases List.mem_cons.1 he with rfl | he
      · exact hac
      · exact lt_trans hac (hc e he)
    · split
      · next heq =>
        subst heq
        rw [read_cons b v hc, read_listed]
        split <;> rfl
      · next hne =>
        rw [read_listed, read_listed, ih hr]
        split
        · next hbc => subst hbc; rw [if_neg (by omega)]
        · rfl

@[simp] theorem read_write_same {m : Memory} (hm : m.wf = true) : (m.write a v).read a = v := by
  simp [read_write, hm]

/-- A write leaves every other byte alone. -/
theorem read_write_other {m : Memory} (hm : m.wf = true) (h : b ≠ a) : (m.write a v).read b = m.read b := by
  simp [read_write, hm, h]

/-- A write below `size` keeps every listed address below `size`. -/
theorem within_write {m : Memory} {size : Nat} (hm : m.within size = true) (ha : a < size) :
    (m.write a v).within size = true := by
  simp only [Memory.within, List.all_eq_true, decide_eq_true_eq] at *
  intro c hc
  rcases mem_write a v hc with h | h
  · omega
  · exact hm c h

/-- Canonical memories that read alike everywhere are the same list. -/
theorem eq_of_read_eq {m n : Memory} (hm : m.wf = true) (hn : n.wf = true) (h : ∀ a, m.read a = n.read a) : m = n := by
  induction m generalizing n with
  | nil =>
    cases n with
    | nil => rfl
    | cons d rest =>
      obtain ⟨b, u⟩ := d
      have := h b
      simp at this
      exact absurd this.symm ((wf_listed_iff _ _ _).1 hn).1
  | cons d rest ih =>
    obtain ⟨b, u⟩ := d
    obtain ⟨hu, hb, hr⟩ := (wf_listed_iff _ _ _).1 hm
    cases n with
    | nil =>
      have := h b
      simp at this
      exact absurd this hu
    | cons e rest' =>
      obtain ⟨c, w⟩ := e
      obtain ⟨hw, hc, hr'⟩ := (wf_listed_iff _ _ _).1 hn
      have hbc : b = c := by
        rcases lt_trichotomy b c with hlt | heq | hgt
        · have h1 := h b
          rw [read_listed, if_pos rfl, read_of_allAbove] at h1
          · exact absurd h1 hu
          · intro x hx
            rcases List.mem_cons.1 hx with rfl | hx
            · exact hlt
            · exact lt_trans hlt (hc x hx)
        · exact heq
        · have h1 := h c
          rw [read_listed c c w, if_pos rfl, read_of_allAbove] at h1
          · exact absurd h1.symm hw
          · intro x hx
            rcases List.mem_cons.1 hx with rfl | hx
            · exact hgt
            · exact lt_trans hgt (hb x hx)
      subst hbc
      have huw : u = w := by simpa using h b
      subst huw
      refine congrArg _ (ih hr hr' fun a => ?_)
      by_cases hab : a = b
      · subst hab
        rw [read_of_allAbove hb, read_of_allAbove hc]
      · simpa [hab] using h a

end Sys2Proof.Machine
end

