-- ==== Sys2Proof/Laws/ConfigStore.lean ====
section
/-! SUPPORT. What the configuration store's sub-steps can do (R105, R110), and where the bytes of a slot lie (R103). -/

namespace Sys2Proof.Machine

/-! ### Groups and slots -/

/-- A group has one to three fields (R101). -/
theorem groupFields_length (g : Fin 6) : 1 ≤ (groupFields g).length ∧ (groupFields g).length ≤ 3 := by
  fin_cases g <;> decide

@[simp] theorem storedFields_length (s : State) (g : Fin 6) : (storedFields s g).length = (groupFields g).length := by
  simp [storedFields]

@[simp] theorem defaultFields_length (p : Config.Params) (g : Fin 6) :
    (defaultFields p g).length = (groupFields g).length := by simp [defaultFields]

@[simp] theorem shadowFields_length (s : State) (g : Fin 6) : (shadowFields s g).length = (groupFields g).length := by
  simp [shadowFields]

/-- A slot's bytes: the fields at `base(g) + k`, the checksum after them (R103). -/
theorem mem_slotImage_iff (p : Config.Params) (g : Fin 6) (vals : List Byte) (a : Nat) (v : Byte) :
    (a, v) ∈ slotImage p g vals ↔ ∃ k, (vals ++ [cks vals])[k]? = some v ∧ a = slotBase p g + k := by
  simp only [slotImage, List.mem_map, Prod.mk.injEq]
  constructor
  · rintro ⟨⟨u, k⟩, hm, ha, rfl⟩
    exact ⟨k, List.mem_zipIdx_iff_getElem?.1 hm, ha.symm⟩
  · rintro ⟨k, hk, rfl⟩
    exact ⟨(v, k), List.mem_zipIdx_iff_getElem?.2 hk, rfl, rfl⟩

/-- Every byte of a slot lies in the 24 bytes from `P_EE_BASE` on (R36, R103). -/
theorem slotImage_inside {p : Config.Params} {g : Fin 6} {vals : List Byte} (hv : vals.length = (groupFields g).length)
    {c : Host.Cell} (hc : c ∈ slotImage p g vals) : p.eeBase ≤ c.1 ∧ c.1 < p.eeBase + 24 := by
  obtain ⟨a, v⟩ := c
  obtain ⟨k, hk, rfl⟩ := (mem_slotImage_iff p g vals a v).1 hc
  have hlen : k < (vals ++ [cks vals]).length := (List.getElem?_eq_some_iff.1 hk).1
  have := (groupFields_length g).2
  have hg := g.isLt
  simp [hv] at hlen
  simp only [slotBase]
  omega

theorem slotImage_ne_nil (p : Config.Params) (g : Fin 6) (vals : List Byte) : slotImage p g vals ≠ [] := by
  simp [slotImage]

/-- A checksum byte lies in the 24 bytes from `P_EE_BASE` on. -/
theorem checksumAddr_lt (p : Config.Params) (g : Fin 6) : checksumAddr p g < p.eeBase + 24 := by
  have := (groupFields_length g).2
  have hg := g.isLt
  simp only [checksumAddr, slotBase]
  omega

/-! ### Storing a group -/

/-- Storing a group writes the shadow alone. -/
theorem storeGroup_eq (g : Fin 6) (vals : List Byte) (s : State) :
    storeGroup g vals s = { s with
      cfg := ((groupFields g).zip vals).foldl (fun c fv => c.set fv.1 fv.2) s.cfg } := rfl

/-! ### Sub-steps: everything each can do -/

/-- A byte write either lands or stops at an address the EEPROM does not have. -/
theorem writeThen_cases (a : Nat) (v : Byte) (s : State) (after : State → State) :
    (a < s.params.eeSize ∧ writeThen a v s after = .next (after (s.putByte a v))) ∨
    (s.params.eeSize ≤ a ∧ writeThen a v s after = .fault .eepromAddress) := by
  unfold writeThen
  split
  · next h => exact .inl ⟨h, rfl⟩
  · next h => exact .inr ⟨by omega, rfl⟩

/-- Everything a read-and-validate sub-step can do. -/
theorem validateStep_cases (g : Fin 6) (s : State) :
    (checksumAddr s.params g < s.params.eeSize ∧ groupValid s g = true ∧
      validateStep g s = .next ((storeGroup g (storedFields s g) s).setBusy (some (afterGroup g)))) ∨
    (checksumAddr s.params g < s.params.eeSize ∧ groupValid s g = false ∧
      validateStep g s = .next ((storeGroup g (defaultFields s.params g) s).setBusy
        (some (.loadRewrite g (slotImage s.params g (defaultFields s.params g)))))) ∨
    (s.params.eeSize ≤ checksumAddr s.params g ∧ validateStep g s = .fault .eepromAddress) := by
  unfold validateStep
  split
  · next h =>
    cases hv : groupValid s g with
    | true => exact .inl ⟨h, rfl, by simp⟩
    | false => exact .inr (.inl ⟨h, rfl, by simp⟩)
  · next h => exact .inr (.inr ⟨by omega, rfl⟩)

/-- Everything a rewrite sub-step with a byte left can do. -/
theorem rewriteStep_cases (g : Fin 6) (a : Nat) (v : Byte) (more : List Host.Cell) (s : State) :
    (a < s.params.eeSize ∧ rewriteStep g ((a, v) :: more) s =
      .next ((s.putByte a v).setBusy (some (if more.isEmpty then afterGroup g else .loadRewrite g more)))) ∨
    (s.params.eeSize ≤ a ∧ rewriteStep g ((a, v) :: more) s = .fault .eepromAddress) :=
  writeThen_cases a v s fun s => s.setBusy (some (if more.isEmpty then afterGroup g else .loadRewrite g more))

/-- Everything a commit sub-step with a byte left can do. -/
theorem commitStep_cases (a : Nat) (v : Byte) (more : List Host.Cell) (s : State) :
    (a < s.params.eeSize ∧ commitStep ((a, v) :: more) s =
      .next ((s.putByte a v).setBusy (if more.isEmpty then none else some (.commit more)))) ∨
    (s.params.eeSize ≤ a ∧ commitStep ((a, v) :: more) s = .fault .eepromAddress) :=
  writeThen_cases a v s fun s => s.setBusy (if more.isEmpty then none else some (.commit more))

/-- The checksum of field bytes is their sum modulo 256 (R102). -/
theorem cks_toNat (vals : List Byte) : (cks vals).toNat = (vals.map BitVec.toNat).sum % 256 := by
  simp [cks]

end Sys2Proof.Machine
end

