-- ==== Sys2Proof/Laws/Multiplexer.lean ====
section
/-! SUPPORT. What one multiplexer step does, field by field (R222), so that nothing after unfolds it. -/

namespace Sys2Proof.Machine

variable (s : State)

/-! ### The line part and the phase part -/

/-- The line part writes the three line groups and nothing else. -/
theorem driveLines_eq :
    driveLines s = s.setLines
      (if drives s then s.buf[s.phase] else 0)
      (if drives s ∧ s.phase.val < 4 then onehot 4 s.phase.val else 0)
      (if drives s ∧ 4 ≤ s.phase.val then onehot 8 (s.phase.val - 4) else 0) := by
  unfold driveLines
  by_cases h : drives s = true <;> simp [h]

/-- The phase part writes `phase` and `dim_cnt` and nothing else. -/
theorem advancePhase_eq :
    advancePhase s = { s with
      phase := s.phase + 1
      dimCnt := if s.phase = 11 then s.dimCnt + 1 else s.dimCnt } := by
  unfold advancePhase
  split
  · next h =>
    congr 1
    · rw [h]; decide
    · split
      · next h9 => rw [h9]; decide
      · rfl
  · rfl

/-! ### The whole step -/

/-- `MuxStep` as one record update: the registers R222 names, and nothing else. -/
theorem muxStep_eq :
    muxStep s = { s with
      outData := if drives s then s.buf[s.phase] else 0
      outDsel := if drives s ∧ s.phase.val < 4 then onehot 4 s.phase.val else 0
      outLsel := if drives s ∧ 4 ≤ s.phase.val then onehot 8 (s.phase.val - 4) else 0
      phase := s.phase + 1
      dimCnt := if s.phase = 11 then s.dimCnt + 1 else s.dimCnt
      tickCnt := s.tickCnt + 1
      debCnt := if s.debCnt = 0 then 0 else s.debCnt - 1 } := by
  unfold muxStep decayDebounce countTick
  rw [advancePhase_eq, driveLines_eq]
  rfl

@[simp] theorem muxStep_outData : (muxStep s).outData = if drives s then s.buf[s.phase] else 0 := by rw [muxStep_eq]
@[simp] theorem muxStep_outDsel :
    (muxStep s).outDsel = if drives s ∧ s.phase.val < 4 then onehot 4 s.phase.val else 0 := by rw [muxStep_eq]
@[simp] theorem muxStep_outLsel :
    (muxStep s).outLsel = if drives s ∧ 4 ≤ s.phase.val then onehot 8 (s.phase.val - 4) else 0 := by rw [muxStep_eq]
@[simp] theorem muxStep_phase : (muxStep s).phase = s.phase + 1 := by rw [muxStep_eq]
@[simp] theorem muxStep_dimCnt :
    (muxStep s).dimCnt = if s.phase = 11 then s.dimCnt + 1 else s.dimCnt := by rw [muxStep_eq]
@[simp] theorem muxStep_tickCnt : (muxStep s).tickCnt = s.tickCnt + 1 := by rw [muxStep_eq]
@[simp] theorem muxStep_debCnt : (muxStep s).debCnt = if s.debCnt = 0 then 0 else s.debCnt - 1 := by rw [muxStep_eq]
@[simp] theorem muxStep_buf : (muxStep s).buf = s.buf := by rw [muxStep_eq]
@[simp] theorem muxStep_dimLevel : (muxStep s).dimLevel = s.dimLevel := by rw [muxStep_eq]
@[simp] theorem muxStep_muxMasked : (muxStep s).muxMasked = s.muxMasked := by rw [muxStep_eq]
@[simp] theorem muxStep_muxPending : (muxStep s).muxPending = s.muxPending := by rw [muxStep_eq]
@[simp] theorem muxStep_rdataMain : (muxStep s).rdataMain = s.rdataMain := by rw [muxStep_eq]
@[simp] theorem muxStep_rdataEdge : (muxStep s).rdataEdge = s.rdataEdge := by rw [muxStep_eq]
@[simp] theorem muxStep_lfsr : (muxStep s).lfsr = s.lfsr := by rw [muxStep_eq]
@[simp] theorem muxStep_lastIdx : (muxStep s).lastIdx = s.lastIdx := by rw [muxStep_eq]
@[simp] theorem muxStep_lastMin : (muxStep s).lastMin = s.lastMin := by rw [muxStep_eq]
@[simp] theorem muxStep_cfg : (muxStep s).cfg = s.cfg := by rw [muxStep_eq]
@[simp] theorem muxStep_cfgLoaded : (muxStep s).cfgLoaded = s.cfgLoaded := by rw [muxStep_eq]
@[simp] theorem muxStep_ee : (muxStep s).ee = s.ee := by rw [muxStep_eq]
@[simp] theorem muxStep_fault : (muxStep s).fault = s.fault := by rw [muxStep_eq]
@[simp] theorem muxStep_busy : (muxStep s).busy = s.busy := by rw [muxStep_eq]
@[simp] theorem muxStep_issuer : (muxStep s).issuer = s.issuer := by rw [muxStep_eq]
@[simp] theorem muxStep_inputs : (muxStep s).inputs = s.inputs := by rw [muxStep_eq]
@[simp] theorem muxStep_draws : (muxStep s).draws = s.draws := by rw [muxStep_eq]
@[simp] theorem muxStep_params : (muxStep s).params = s.params := by rw [muxStep_eq]

end Sys2Proof.Machine
end

