-- ==== Sys2Proof/Laws/PerInstr.lean ====
section
/-! SUPPORT. Statements for all commands, made per command: the word of a command carries the command's opcode in `OP`
(R80, R82). -/

namespace Sys2Proof.Laws.OpcodeField

def Statement (i : Instr) : Prop := opField (encode i) = i.opcode

theorem tick : Statement .tick := opField_packWord ..
theorem bufWr (c : BitVec 4) (v : Byte) : Statement (.bufWr c v) := opField_packWord ..
theorem bufRd (c : BitVec 4) : Statement (.bufRd c) := opField_packWord ..
theorem dimSet (l : Byte) : Statement (.dimSet l) := opField_packWord ..
theorem muxMask : Statement .muxMask := opField_packWord ..
theorem muxUnmask : Statement .muxUnmask := opField_packWord ..
theorem tickRd : Statement .tickRd := opField_packWord ..
theorem debLoad (v : Byte) : Statement (.debLoad v) := opField_packWord ..
theorem debRd : Statement .debRd := opField_packWord ..
theorem animStep (k : BitVec 4) (h m s : Byte) : Statement (.animStep k h m s) := opField_packWord ..
theorem cfgLoad : Statement .cfgLoad := opField_packWord ..
theorem cfgRd (f : BitVec 4) : Statement (.cfgRd f) := opField_packWord ..
theorem cfgWr (f : BitVec 4) (v : Byte) : Statement (.cfgWr f v) := opField_packWord ..
theorem cfgCommit (g : BitVec 4) : Statement (.cfgCommit g) := opField_packWord ..
theorem reservedE (r : BitVec 28) : Statement (.reservedE r) := opField_reserved ..
theorem reservedF (r : BitVec 28) : Statement (.reservedF r) := opField_reserved ..

end Sys2Proof.Laws.OpcodeField
end

