-- ==== Sys2Proof/Laws/Steps.lean ====
section
/-! SUPPORT. What `exec` and `step` can do, said once: a command runs its effect or takes one fault; a step is one entry of the
environment. -/

namespace Sys2Proof.Machine

/-- What a command does once it has passed the checks. -/
def effectOf (i : Instr) (s : State) : Host.Outcome State Fault Refusal :=
  match i with
  | .tick => .next (if s.muxMasked then s.setPending true else muxStep s)
  | .bufWr c v => .next (s.writeCell (cellOf c) v)
  | .bufRd c => .next (s.putResult s.buf[cellOf c])
  | .dimSet l => .next (s.setDimLevel (levelOf l))
  | .muxMask => .next (s.setMasked true)
  | .muxUnmask => .next (if s.muxPending then muxStep ((s.setMasked false).setPending false) else s.setMasked false)
  | .tickRd => .next (s.putResult s.tickCnt)
  | .debLoad v => .next (s.loadDebounce v)
  | .debRd => .next (s.putResult s.debCnt)
  | .animStep k h m sec => .next (animCompute k h m sec s)
  | .cfgLoad => validateStep 0 s
  | .cfgRd f => .next (s.putResult s.cfg[fieldOf f])
  | .cfgWr f v => .next (s.putField (fieldOf f) v)
  | .cfgCommit g => commitStep (slotImage s.params (groupOf g) (shadowFields s (groupOf g))) s
  | .reservedE _ => .next s
  | .reservedF _ => .next s

/-- Every command is its effect behind the checks. -/
theorem exec_eq_checked (i : Instr) (s : State) : exec i s = checked i s (effectOf i) := by
  cases i <;> rfl

/-- A command that passes the checks does its effect. -/
theorem exec_of_admitted {i : Instr} {s : State} (h : admission i s = none) : exec i s = effectOf i s := by
  rw [exec_eq_checked, checked_of_admitted h]

/-- A command that does not pass takes its fault. -/
theorem exec_of_refused {i : Instr} {s : State} {code : FaultCode} (h : admission i s = some code) :
    exec i s = .next (s.takeFault code (encode i)) := by
  rw [exec_eq_checked, checked_of_refused h]

/-- Everything `exec` can do. -/
theorem exec_cases (i : Instr) (s : State) :
    (admission i s = none ∧ exec i s = effectOf i s) ∨
    (∃ code, admission i s = some code ∧ exec i s = .next (s.takeFault code (encode i))) := by
  rw [exec_eq_checked]
  exact checked_cases i s _

/-- Everything one step can do, by the entry at the head of the environment's list. -/
inductive StepCase (s : State) : Host.Outcome State Fault Refusal → Prop where
  /-- Nothing is left to act. -/
  | idle (h : s.inputs = []) : StepCase s (.next s)
  /-- RESET at a boundary. -/
  | reset (rest : List Event) (h : s.inputs = .reset :: rest) : StepCase s (.next (s.setInputs rest).afterReset)
  /-- RESET during MAIN's next step. -/
  | resetDuring (w : Word) (rest : List Event) (h : s.inputs = .resetDuring w :: rest) :
      StepCase s (.next (resetDuringStep w (s.setInputs rest)))
  /-- An agent's entry that finds the block halted, or MAIN's turn with nothing in progress. -/
  | passed (e : Event) (rest : List Event) (h : s.inputs = e :: rest)
      (why : s.fault.isSome = true ∨ e = .proceed ∧ s.busy = none) : StepCase s (.next (s.setInputs rest))
  /-- A word is issued. -/
  | issued (a : Agent) (w : Word) (rest : List Event) (h : s.inputs = .issue a w :: rest) (running : s.fault = none)
      (free : a = .main → s.busy = none) : StepCase s (issueWord a w (s.setInputs rest))
  /-- MAIN's sub-step, in its own turn. -/
  | continued (p : Progress) (rest : List Event) (h : s.inputs = .proceed :: rest) (running : s.fault = none)
      (hp : s.busy = some p) : StepCase s (subStep p (s.setInputs rest))
  /-- MAIN's sub-step, in front of a word that waits. -/
  | waiting (w : Word) (rest : List Event) (p : Progress) (h : s.inputs = .issue .main w :: rest)
      (running : s.fault = none) (hp : s.busy = some p) : StepCase s (subStep p s)

/-- The inversion of `step`. -/
theorem step_cases (s : State) : StepCase s (step s) := by
  unfold step
  split
  · next h => exact .idle h
  · next e rest h =>
    cases e with
    | reset => exact .reset rest h
    | resetDuring w => exact .resetDuring w rest h
    | proceed =>
      simp only [handleEvent]
      cases hf : s.fault with
      | some r => exact .passed _ rest h (.inl (by simp [hf]))
      | none =>
        simp only [Option.isSome_none, Bool.false_eq_true, if_false]
        cases hb : s.busy with
        | some p => exact .continued p rest h hf hb
        | none => exact .passed _ rest h (.inr ⟨rfl, hb⟩)
    | issue a w =>
      simp only [handleEvent]
      cases hf : s.fault with
      | some r => exact .passed _ rest h (.inl (by simp [hf]))
      | none =>
        simp only [Option.isSome_none, Bool.false_eq_true, if_false]
        cases a with
        | main =>
          cases hb : s.busy with
          | some p => exact .waiting w rest p h hf hb
          | none => exact .issued _ w rest h hf fun _ => hb
        | timer => exact .issued _ w rest h hf (by simp)
        | edge => exact .issued _ w rest h hf (by simp)

/-- Everything a RESET during MAIN's step can do: tear the byte being written and reset, or reset (R290, R292). -/
theorem resetDuringStep_cases (w : Word) (s : State) :
    (∃ a, s.fault = none ∧ nextWrite w s = some a ∧ a < s.params.eeSize ∧
      resetDuringStep w s = (s.tearByte a).afterReset) ∨
    ((s.fault ≠ none ∨ nextWrite w s = none ∨ ∃ a, nextWrite w s = some a ∧ s.params.eeSize ≤ a) ∧
      resetDuringStep w s = s.afterReset) := by
  cases hf : s.fault with
  | some r => exact .inr ⟨.inl (by simp), by simp [resetDuringStep, hf]⟩
  | none =>
    cases hn : nextWrite w s with
    | none => exact .inr ⟨.inr (.inl rfl), by simp [resetDuringStep, hf, hn]⟩
    | some a =>
      by_cases ha : a < s.params.eeSize
      · exact .inl ⟨a, rfl, rfl, ha, by simp [resetDuringStep, hf, hn, ha]⟩
      · exact .inr ⟨.inr (.inr ⟨a, rfl, by omega⟩), by simp [resetDuringStep, hf, hn, ha]⟩

/-- A word that decodes is run by `exec`, its issuer noted. -/
theorem issueWord_of_decoded {a : Agent} {w : Word} {i : Instr} (s : State) (h : decode w = .ok i) :
    issueWord a w s = exec i (s.setIssuer a) := by
  rw [issueWord, h]

/-- No step: the run stays where it is. -/
@[simp] theorem run_zero (s : State) : Host.Core.run Sys2Proof.core 0 s = .next s := rfl

/-- A run of any machine goes on from the state its first step answers. -/
theorem core_run_succ (M : Host.Core) {s t : M.State} (h : M.step s = .next t) (n : Nat) : M.run (n + 1) s = M.run n t := by
  simp [Host.Core.run, h]

/-- A run of the block goes on from the state its first step answers. -/
theorem run_succ_of_step {s t : State} (h : step s = .next t) (n : Nat) :
    Host.Core.run Sys2Proof.core (n + 1) s = Host.Core.run Sys2Proof.core n t :=
  core_run_succ Sys2Proof.core h n

end Sys2Proof.Machine
end

