-- ==== Sys2Proof/Tests/Slice0.lean ====
section
/-! SUPPORT. Small tests, and for every statement with hypotheses a witness that meets them. Expected results are the words of
R82's encodings written out bit by bit, and the vectors of spec/95_test_vectors.md, named as there. -/

namespace Sys2Proof.Tests

open Sys2Proof Sys2Proof.Machine Sys2Proof.Terms

/-! ### Start states and observation -/

/-- `S0`. -/
def s0 : State := State.reset

/-- `S0u`: `S0` after `MUX_UNMASK`. -/
def s0u : State := { s0 with muxMasked := false }

/-- `s` with the configuration loaded as the defaults. -/
def loaded (s : State) : State := { s with cfg := #v[6, 30, 0, 0, 0, 1, 0, 1, 1, 0], cfgLoaded := true }

/-- `EE_OK`, its unused bytes erased. -/
def eeOk : Memory :=
  [(0, 6), (1, 30), (2, 0), (3, 36), (4, 0), (5, 0), (8, 0), (9, 0)] ++
  [(12, 1), (13, 1), (16, 0), (17, 0), (20, 1), (21, 1), (22, 0), (23, 2)]

/-- `s` with one entry presented. -/
def presented (e : Event) (s : State) : State := { s with inputs := [e] }

/-- The one step in which agent `a` issues `w`. -/
def issueTo (a : Agent) (w : Word) (s : State) : Host.Outcome State Fault Refusal := step (presented (.issue a w) s)

/-- The outcome is a next state of which `p` holds. -/
def nextWith (o : Host.Outcome State Fault Refusal) (p : State → Bool) : Bool :=
  match o with
  | .next t => p t
  | .fault _ => false
  | .refused _ => false

/-- The fault register holds this code. -/
def tookFault (c : FaultCode) (t : State) : Bool := t.fault.map (·.code) == some c

/-! ### Decoding: one word per command, bit by bit from R80 and R82 -/

theorem test_decode_tick : decode 0b0000_0000_00000000_00000000_00000000 = .ok .tick := by decide
theorem test_decode_bufWr : decode 0b0001_1011_00000000_00000000_10100101 = .ok (.bufWr 11 0xA5) := by decide
theorem test_decode_bufRd : decode 0b0010_0100_00000000_00000000_00000000 = .ok (.bufRd 4) := by decide
theorem test_decode_dimSet : decode 0b0011_0000_00000000_00000000_00001001 = .ok (.dimSet 9) := by decide
theorem test_decode_muxMask : decode 0b0100_0000_00000000_00000000_00000000 = .ok .muxMask := by decide
theorem test_decode_muxUnmask : decode 0b0101_0000_00000000_00000000_00000000 = .ok .muxUnmask := by decide
theorem test_decode_tickRd : decode 0b0110_0000_00000000_00000000_00000000 = .ok .tickRd := by decide
theorem test_decode_debLoad : decode 0b0111_0000_00000000_00000000_11111110 = .ok (.debLoad 0xFE) := by decide
theorem test_decode_debRd : decode 0b1000_0000_00000000_00000000_00000000 = .ok .debRd := by decide
theorem test_decode_animStep : decode 0b1001_1101_00010111_00111010_00101001 = .ok (.animStep 13 23 58 41) := by decide
theorem test_decode_cfgLoad : decode 0b1010_0000_00000000_00000000_00000000 = .ok .cfgLoad := by decide
theorem test_decode_cfgRd : decode 0b1011_0110_00000000_00000000_00000000 = .ok (.cfgRd 6) := by decide
theorem test_decode_cfgWr : decode 0b1100_1001_00000000_00000000_01100011 = .ok (.cfgWr 9 99) := by decide
theorem test_decode_cfgCommit : decode 0b1101_0101_00000000_00000000_00000000 = .ok (.cfgCommit 5) := by decide
theorem test_decode_reservedE : decode 0b1110_0001_00000010_00000011_00000100 = .ok (.reservedE 0x1020304) := by decide
theorem test_decode_reservedF : decode 0b1111_0001_00100011_01000101_01100111 = .ok (.reservedF 0x1234567) := by decide

/-- V-F10, V-F12, V-F13, V-F14, V-F16: a 1 in a must-be-zero field is rejected. -/
theorem test_decode_rejects_unused_fields :
    decode 0x10000100 = .reservedField 1 ∧ decode 0x3000FF09 = .reservedField 3 ∧ decode 0x40000001 = .reservedField 4 ∧
    decode 0xA0000001 = .reservedField 10 ∧ decode 0x70000105 = .reservedField 7 := by decide

/-- spec/opcode_table.json's rows, with the operands' bits 0, read through the host's entry point. -/
theorem test_decodeTableWord :
    decodeTableWord 32 0x90000000 = some (.animStep 0 0 0 0) ∧ decodeTableWord 32 0xF0000000 = some (.reservedF 0) ∧
    decodeTableWord 32 0x20000001 = none := by decide

/-- A placed word is the very next command: V-F19's `BUF_RD 11` from MAIN, and `TICK` from TIMER (V-M1). -/
theorem test_withFetchWord :
    nextWith (step ({ s0 with buf := s0.buf.set 11 0x5C }.withFetchWord 32 0x2B000000)) (·.rdataMain == 0x5C) ∧
    nextWith (step (s0.withFetchWord 32 0)) (·.muxPending) := by decide +kernel

/-! ### WellFormed: for each check a term it refuses, one past the edge R85 names, beside one it accepts -/

theorem test_wellFormed_bufWr : (Instr.bufWr 12 0).wellFormed = false ∧ (Instr.bufWr 11 0).wellFormed = true := by decide
theorem test_wellFormed_bufRd : (Instr.bufRd 12).wellFormed = false ∧ (Instr.bufRd 11).wellFormed = true := by decide
theorem test_wellFormed_dimSet : (Instr.dimSet 10).wellFormed = false ∧ (Instr.dimSet 9).wellFormed = true := by decide
theorem test_wellFormed_animStep :
    (Instr.animStep 15 24 0 0).wellFormed = false ∧ (Instr.animStep 15 0 60 0).wellFormed = false ∧
    (Instr.animStep 15 0 0 60).wellFormed = false ∧ (Instr.animStep 15 23 59 59).wellFormed = true := by decide
theorem test_wellFormed_cfgRd : (Instr.cfgRd 10).wellFormed = false ∧ (Instr.cfgRd 9).wellFormed = true := by decide
/-- R100's ranges, field by field; X10, X11, V-F26, V-F34. -/
theorem test_wellFormed_cfgWr_refused :
    ∀ fv ∈ [(0, 24), (1, 60), (2, 2), (3, 2), (4, 2), (5, 16), (6, 10), (7, 0), (7, 32), (8, 0), (8, 13), (9, 100), (10, 0)],
      (Instr.cfgWr (BitVec.ofNat 4 fv.1) (BitVec.ofNat 8 fv.2)).wellFormed = false := by decide
theorem test_wellFormed_cfgWr_accepted :
    ∀ fv ∈ [(0, 23), (1, 59), (2, 1), (3, 1), (4, 1), (5, 15), (6, 9), (7, 1), (7, 31), (8, 1), (8, 12), (9, 99)],
      (Instr.cfgWr (BitVec.ofNat 4 fv.1) (BitVec.ofNat 8 fv.2)).wellFormed = true := by decide
theorem test_wellFormed_cfgCommit : (Instr.cfgCommit 6).wellFormed = false ∧ (Instr.cfgCommit 5).wellFormed = true := by decide
theorem test_wellFormed_reserved : (Instr.reservedE 0).wellFormed = false ∧ (Instr.reservedF 0).wellFormed = false := by decide

/-! ### One step per command -/

/-- V-B8 -/
theorem test_tick_drives : nextWith (issueTo .timer 0 { s0u with buf := s0.buf.set 0 0x3F })
    (fun t => t.outData == 0x3F && t.outDsel == 0b0001 && t.outLsel == 0 && t.phase == 1 && t.tickCnt == 1) := by
  decide +kernel
/-- X7: with level 9 the frame of `dim_cnt` 8 is blank, and its last step moves on to 9. -/
theorem test_tick_blank_frame :
    nextWith (issueTo .timer 0 { s0u with buf := s0.buf.set 11 0xFF, dimLevel := 9, dimCnt := 8, phase := 11 })
      (fun t => t.outData == 0 && t.outLsel == 0 && t.phase == 0 && t.dimCnt == 9) := by decide +kernel
/-- V-B1 -/
theorem test_bufWr : nextWith (issueTo .main 0x11000006 s0) (fun t => t.buf[1] == 0x06 && t.buf[0] == 0) := by
  decide +kernel
/-- V-B7 -/
theorem test_bufWr_cell_twelve : nextWith (issueTo .main 0x1C000001 s0) (tookFault .operandRange) := by decide +kernel
/-- V-B3 -/
theorem test_bufRd : nextWith (issueTo .main 0x2B000000 { s0 with buf := s0.buf.set 11 0xFF })
    (fun t => t.rdataMain == 0xFF && t.rdataEdge == 0) := by decide +kernel
/-- V-M10 -/
theorem test_dimSet : nextWith (issueTo .main 0x30000009 s0u) (fun t => t.dimLevel == 9 && t.fault == none) := by
  decide +kernel
/-- V-F20 -/
theorem test_dimSet_ten : nextWith (issueTo .main 0x3000000A s0)
    (fun t => tookFault .operandRange t && t.dimLevel == 0) := by decide +kernel
/-- V-M4's first command. -/
theorem test_muxMask : nextWith (issueTo .main 0x40000000 s0u) (fun t => t.muxMasked && t.phase == 0) := by decide +kernel
/-- V-M2 -/
theorem test_muxUnmask_pending : nextWith (issueTo .main 0x50000000 { s0 with muxPending := true })
    (fun t => t.outDsel == 0b0001 && t.phase == 1 && t.tickCnt == 1 && !t.muxPending && !t.muxMasked) := by decide +kernel
/-- V-M5 -/
theorem test_muxUnmask_idle : nextWith (issueTo .main 0x50000000 s0u)
    (fun t => t.phase == 0 && t.tickCnt == 0 && !t.muxMasked) := by decide +kernel
/-- V-M14, by MAIN. -/
theorem test_tickRd : nextWith (issueTo .main 0x60000000 { s0u with tickCnt := 12 })
    (fun t => t.rdataMain == 0x0C && t.rdataEdge == 0) := by decide +kernel
/-- V-F8, by EDGE. -/
theorem test_tickRd_edge : nextWith (issueTo .edge 0x60000000 { s0u with tickCnt := 12 })
    (fun t => t.rdataEdge == 0x0C && t.rdataMain == 0) := by decide +kernel
/-- V-F35 -/
theorem test_debLoad : nextWith (issueTo .edge 0x700000FF s0) (·.debCnt == 0xFF) := by decide +kernel
/-- V-M16 -/
theorem test_debRd : nextWith (issueTo .edge 0x80000000 { s0 with debCnt := 3 })
    (fun t => t.rdataEdge == 3 && t.rdataMain == 0) := by decide +kernel
/-- V-A3: the compute step leaves `00 04 00 00 00 00 00 00` to be written, and no cell is written yet. -/
theorem test_animStep : nextWith (issueTo .main 0x910C220A s0)
    (fun t => t.busy == some (.anim 0 #v[0, 4, 0, 0, 0, 0, 0, 0]) && t.buf == s0.buf && t.lastIdx == some 1 &&
      t.lastMin == some 34 && t.lfsr == 1) := by decide +kernel
/-- V-A51: the second `ANIM_STEP 10` of a minute is skipped, whatever the hour (V-A53). -/
theorem test_animStep_skipped :
    nextWith (issueTo .main 0x9A0E1E01 { s0 with lastIdx := some 10, lastMin := some 30 }) (·.busy == none) := by
  decide +kernel
/-- V-C4: a group whose bytes are swapped passes and is loaded as it is. -/
theorem test_cfgLoad_passes : nextWith (issueTo .main 0xA0000000 { s0 with ee := (eeOk.write 0 30).write 1 6 })
    (fun t => t.cfg[0] == 30 && t.cfg[1] == 6 && t.busy == some (.loadValidate 1)) := by decide +kernel
/-- X1: with `ee[0x03] = 0x25` group 0 takes its defaults and `06 1E 00 24` is to be written. -/
theorem test_cfgLoad_falls_back : nextWith (issueTo .main 0xA0000000 { s0 with ee := eeOk.write 3 0x25 })
    (fun t => t.cfg[0] == 6 && t.cfg[1] == 30 && t.ee == eeOk.write 3 0x25 &&
      t.busy == some (.loadRewrite 0 [(0, 0x06), (1, 0x1E), (2, 0x00), (3, 0x24)])) := by decide +kernel
/-- V-C6 -/
theorem test_cfgRd : nextWith (issueTo .main 0xB5000000 (loaded s0)) (·.rdataMain == 1) := by decide +kernel
/-- V-F28 -/
theorem test_cfgRd_before_load : nextWith (issueTo .main 0xB0000000 s0) (tookFault .configNotLoaded) := by decide +kernel
/-- V-F32 -/
theorem test_cfgWr : nextWith (issueTo .main 0xC700001F (loaded s0)) (fun t => t.cfg[7] == 31 && t.ee == s0.ee) := by
  decide +kernel
/-- V-F34 -/
theorem test_cfgWr_year_hundred : nextWith (issueTo .main 0xC9000064 (loaded s0)) (tookFault .operandRange) := by
  decide +kernel
/-- V-C12's commit: the first byte is written, `0F 01 17` are still to come. -/
theorem test_cfgCommit : nextWith (issueTo .main 0xD0000000
      { loaded s0 with cfg := #v[7, 15, 1, 0, 0, 1, 0, 1, 1, 0], ee := eeOk })
    (fun t => t.ee.read 0 == 7 && t.ee.read 1 == 30 && t.busy == some (.commit [(1, 0x0F), (2, 0x01), (3, 0x17)])) := by
  decide +kernel
/-- V-F1 -/
theorem test_reservedE : nextWith (issueTo .main 0xE0000000 s0)
    (fun t => t == { presented (.issue .main 0xE0000000) s0 with
      inputs := [], fault := some ⟨.illegalOpcode, .main, 0xE0000000⟩ }) := by decide +kernel
/-- V-F2: the reserved opcode is reported before the wrong agent. -/
theorem test_reservedF : nextWith (issueTo .timer 0xF1234567 s0)
    (fun t => t.fault == some ⟨.illegalOpcode, .timer, 0xF1234567⟩) := by decide +kernel

/-! ### Sub-steps, faults and RESET -/

/-- V-A58: the first lane sub-step writes `buf[4]`. -/
theorem test_lane_substep :
    nextWith (step (presented .proceed { s0 with busy := some (.anim 0 (Vector.replicate 8 0xFF)) }))
      (fun t => t.buf[4] == 0xFF && t.buf[5] == 0) := by decide +kernel
/-- V-C8's second byte: the checksum 0x07 at 0x0D, and the commit has finished. -/
theorem test_commit_substep :
    nextWith (step (presented .proceed { loaded s0 with ee := eeOk, busy := some (.commit [(13, 7)]) }))
      (fun t => t.ee.read 13 == 7 && t.busy == none) := by decide +kernel
/-- V-F36 and V-F37. -/
theorem test_halted_until_reset :
    nextWith (issueTo .timer 0 { s0 with fault := some ⟨.illegalOpcode, .main, 0xE0000000⟩ })
      (fun t => t.fault.isSome && !t.muxPending) ∧
    nextWith (step (presented .reset { s0 with fault := some ⟨.illegalOpcode, .main, 0xE0000000⟩ })) (· == s0) := by
  decide +kernel
/-- V-F5, V-F15, V-F25: of two causes the first in R262's order. -/
theorem test_fault_order :
    nextWith (issueTo .main 0x01000000 s0) (tookFault .wrongAgent) ∧
    nextWith (issueTo .main 0xB0000100 s0) (tookFault .reservedField) ∧
    nextWith (issueTo .main 0xBA000000 s0) (tookFault .operandRange) := by decide +kernel
/-- V-C15: the checksum byte holds a free value. -/
theorem test_reset_during_write : nextWith (step (presented (.resetDuring 0)
      { loaded s0 with ee := [(0, 7), (1, 15), (2, 1), (3, 36)], busy := some (.commit [(3, 0x17)]) }))
    (fun t => t.draws == 1 && t.ee.read 2 == 1 && t.busy == none && !t.cfgLoaded) := by
  have h : step (presented (.resetDuring 0)
      { loaded s0 with ee := [(0, 7), (1, 15), (2, 1), (3, 36)], busy := some (.commit [(3, 0x17)]) }) =
    .next { s0 with ee := Memory.write [(0, 7), (1, 15), (2, 1), (3, 36)] 3 (Config.tornByte 0), draws := 1 } := rfl
  rw [h]
  have hr : (Memory.write [(0, 7), (1, 15), (2, 1), (3, 36)] 3 (Config.tornByte 0)).read 2 = 1 := by
    simp [Memory.write, Memory.read]
  simp [nextWith, s0, State.reset]
  exact hr
/-- V-L2, V-L5, V-L8, V-L9, V-L11. -/
theorem test_lfsr : lfsrStep 0xB8 1 = 2 ∧ lfsrStep 0xB8 30 = 0 ∧ lfsrStep 0xB8 127 = 15 ∧ lfsrStep 0xB8 128 = 1 ∧
    lfsrStep 0xB8 255 = 14 := by decide
/-- The values of R164. -/
theorem test_breath : [0, 2, 40, 119, 120, 135, 136, 200, 255].map Config.breathCurve = [0, 1, 20, 59, 60, 60, 59, 27, 0] := by
  decide
/-- X3 -/
theorem test_checksum : cks [7, 15, 1] = 0x17 ∧ cks [31, 12, 99] = 0x8E ∧ cks [0xFF, 0xFF, 0xFF] = 0xFD := by decide

/-- The eight lanes of an animation under the default parameters. -/
def lanesFor (i : BitVec 4) (h m s : Nat) (t r : Byte) : Vector Byte 8 :=
  lanesOf (ring Config.Params.default (animate Config.Params.default i h m s t r).1)

/-- V-A1, V-A4, V-A6, V-A9, V-A11, V-A13, V-A17, V-A19. -/
theorem test_lanes_zero_to_seven :
    lanesFor 0 1 2 3 4 5 = Vector.replicate 8 0 ∧ lanesFor 1 0 0 59 0 1 = #v[0, 0, 0, 0, 0, 0, 0, 0x08] ∧
    lanesFor 2 0 0 59 0 1 = #v[0xFF, 0xFF, 0xFF, 0xFF, 0xFF, 0xFF, 0xFF, 0x07] ∧
    lanesFor 3 0 0 59 0 1 = #v[0xFF, 0xFF, 0xFF, 0xFF, 0xFF, 0xFF, 0xFF, 0x07] ∧
    lanesFor 4 0 0 59 0 1 = #v[0, 0, 0, 0, 0, 0, 0, 0x08] ∧
    lanesFor 5 0 2 10 0 1 = #v[0x00, 0xFC, 0xFF, 0xFF, 0xFF, 0xFF, 0xFF, 0x0F] ∧
    lanesFor 6 0 0 7 0 1 = #v[0xA1, 0x84, 0x10, 0x42, 0x08, 0x21, 0x84, 0x00] ∧
    lanesFor 7 0 0 7 0 1 = #v[0xA0, 0x80, 0x00, 0x02, 0x08, 0x20, 0x80, 0x00] := by decide +kernel
/-- V-A22, V-A28, V-A34, V-A36, V-A40, V-A43, V-A45, V-A50. -/
theorem test_lanes_eight_to_fifteen :
    lanesFor 8 0 0 27 0 1 = #v[0x00, 0x00, 0x00, 0x48, 0x08, 0x21, 0x84, 0x00] ∧
    lanesFor 9 0 1 0 40 1 = #v[0x00, 0x00, 0x00, 0x00, 0x00, 0xFF, 0xFF, 0x0F] ∧
    lanesFor 10 13 30 0 0 1 = #v[0xFF, 0xFF, 0xFF, 0x3F, 0x00, 0x00, 0x00, 0x00] ∧
    lanesFor 11 13 30 0 0 1 = #v[0x20, 0x00, 0x00, 0x00, 0x00, 0x00, 0x00, 0x00] ∧
    lanesFor 12 13 59 1 0 1 = #v[0x01, 0x00, 0x00, 0x00, 0x00, 0x00, 0x00, 0x0C] ∧
    lanesFor 13 0 57 1 0 1 = #v[0x07, 0x00, 0x00, 0x00, 0x00, 0x00, 0x80, 0x0F] ∧
    lanesFor 14 0 0 0 0 1 = #v[0x04, 0x00, 0x00, 0x00, 0x00, 0x00, 0x00, 0x00] ∧
    lanesFor 15 0 0 5 0 1 = #v[0x04, 0x00, 0x00, 0x00, 0x00, 0x00, 0x00, 0x00] := by decide +kernel

/-! ### Witnesses: the hypotheses of each statement can be met, clause by clause, at the edges of their ranges -/

/-- A state reached in use: unmasked, loaded, a stored configuration, lane 7 lit, the memo set. -/
def busyDay : State :=
  { loaded s0u with
    ee := eeOk, outData := 0x08, outLsel := 0x80, lfsr := 59, lastIdx := some 10, lastMin := some 59, dimCnt := 9, dimLevel := 9
    debCnt := 3, tickCnt := 255 }

/-- The invariant from its ten clauses' checks on a state whose parameters, EEPROM and memo are `busyDay`'s. -/
theorem inv_of_busyDay (t : State)
    (same : t.params = busyDay.params ∧ t.ee = busyDay.ee ∧ t.outData = busyDay.outData ∧ t.outDsel = busyDay.outDsel ∧
      t.outLsel = busyDay.outLsel ∧ t.muxPending = busyDay.muxPending ∧ t.lfsr = busyDay.lfsr ∧
      t.lastIdx = busyDay.lastIdx ∧ t.lastMin = busyDay.lastMin)
    (pending : ∀ p, t.busy = some p → Progress.wf t.params p = true) : t.Inv := by
  obtain ⟨h1, h2, h3, h4, h5, h6, h7, h8, h9⟩ := same
  refine ⟨?_, ?_, ?_, ?_, ?_, ?_, ?_, ?_, ?_, pending⟩
  · rw [h1]; decide +kernel
  · rw [h2]; decide
  · rw [h2, h1]; decide
  · rw [selectCount, h4, h5]; decide
  · rw [selectCount, h4, h5, h3]; decide
  · rw [h6]; intro h; cases h
  · rw [h7]; exact .inr (by decide)
  · rw [h8, h9]; rfl
  · rw [h9]; intro m h; cases h; decide

theorem witness_invariant : busyDay.Inv :=
  inv_of_busyDay _ ⟨rfl, rfl, rfl, rfl, rfl, rfl, rfl, rfl, rfl⟩ fun _ h => nomatch h

theorem witness_EncodeOfDecodeIsTheWord : decode 0xFFFFFFFF = .ok (.reservedF 0xFFFFFFF) := by decide

theorem witness_StepRunsTheDecodedCommand :
    (∃ s : State, s.fault = none ∧ s.inputs = .issue .main 0x9F173B3B :: [] ∧ (Agent.main = .main → s.busy = none) ∧
      decode 0x9F173B3B = .ok (.animStep 15 23 59 59)) ∧
    (∃ s : State, s.fault = none ∧ s.inputs = .issue .timer 0 :: [] ∧ (Agent.timer = .main → s.busy = none) ∧
      s.busy = some .loadFinish ∧ decode 0 = .ok .tick) :=
  ⟨⟨presented (.issue .main 0x9F173B3B) s0, rfl, rfl, fun _ => rfl, by decide⟩,
    ⟨{ presented (.issue .timer 0) s0 with busy := some .loadFinish }, rfl, rfl, by decide, rfl, by decide⟩⟩

theorem witness_ReservedOpcodeRaisesIllegalOpcode :
    ∃ s : State, s.fault = none ∧ s.inputs = [.issue .edge 0xE0000000] ∧ opField 0xE0000000 = 0xE ∧
      opField 0xFFFFFFFF = 0xF :=
  ⟨presented (.issue .edge 0xE0000000) s0, rfl, rfl, by decide, by decide⟩

/-- V-F9, V-F4 and V-F8: each agent against both ends of its column. -/
theorem witness_ForeignAgentRaisesWrongAgent :
    (∃ s : State, s.fault = none ∧ s.inputs = [.issue .edge 0xD6000000]) ∧
    (¬ permitted .edge (opField 0xD6000000).toNat ∧ (opField 0xD6000000).toNat ≤ 13) ∧
    (¬ permitted .main (opField 0).toNat ∧ permitted .main (opField 0x10000000).toNat ∧
      permitted .main (opField 0xD0000000).toNat) ∧
    (permitted .edge (opField 0x60000000).toNat ∧ permitted .edge (opField 0x80000000).toNat ∧
      ¬ permitted .edge (opField 0x50000000).toNat) ∧
    (permitted .timer (opField 0).toNat ∧ ¬ permitted .timer (opField 0x60000000).toNat) ∧
    (∃ t : State, issueTo .main 0x3000000A s0 = .next t ∧ ∃ r, t.fault = some r) := by
  refine ⟨⟨presented (.issue .edge 0xD6000000) s0, rfl, rfl⟩, ?_, ?_, ?_, ?_, ⟨_, rfl, _, rfl⟩⟩ <;>
    simp only [permitted] <;> decide

theorem witness_NonzeroUnusedFieldRaisesReservedField :
    ∃ s : State, s.fault = none ∧ s.inputs = [.issue .main 0x10000100] ∧ s.busy = none ∧
      permitted .main (opField 0x10000100).toNat ∧ ∀ r ∈ opcodeRows, r.accepts 0x10000100 = false :=
  ⟨presented (.issue .main 0x10000100) s0, rfl, rfl, rfl, by simp only [permitted]; decide, by decide⟩

theorem witness_OutOfRangeOperandRaisesOperandRange :
    permitted s0.issuer (Instr.dimSet 10).opcode.toNat ∧ (Instr.dimSet 10).wellFormed = false ∧
    permitted s0.issuer (Instr.dimSet 9).opcode.toNat ∧ (Instr.dimSet 9).wellFormed = true ∧ s0.fault = none ∧
    (permitted s0.issuer (Instr.cfgRd 9).opcode.toNat ∧ (Instr.cfgRd 9).wellFormed = true ∧
      ∃ t r, exec (.cfgRd 9) s0 = .next t ∧ t.fault = some r) := by
  refine ⟨?_, by decide, ?_, by decide, rfl, ?_, by decide, _, _, rfl, rfl⟩ <;>
    (rw [show s0.issuer = .main from rfl]; simp only [permitted]; decide)

theorem witness_ConfigCommandsBeforeLoadRaiseConfigNotLoaded :
    s0.issuer = .main ∧ s0.cfgLoaded = false ∧ (9 : BitVec 4).toNat < 10 ∧
    legalFieldValue (9 : BitVec 4).toNat (99 : Byte).toNat = true ∧ (5 : BitVec 4).toNat < 6 := by decide

/-- One word for each cause of R262's order, and one for none. -/
theorem witness_TheFirstFaultOfTheOrderIsTaken :
    (∃ s : State, s.fault = none ∧ s.inputs = [.issue .main 0xC9000063] ∧ s.busy = none ∧ s.cfgLoaded = false) ∧
    14 ≤ (opField 0xE0000000).toNat ∧ ¬ 14 ≤ (opField 0xD6000000).toNat ∧
    ¬ permitted .edge (opField 0xD6000000).toNat ∧ permitted .main (opField 0xD6000000).toNat ∧
    (∀ r ∈ opcodeRows, r.accepts 0xB0000100 = false) ∧ (¬ ∀ r ∈ opcodeRows, r.accepts 0xD6000000 = false) ∧
    (∃ i, decode 0xD6000000 = .ok i ∧ i.wellFormed = false) ∧
    (¬ ∃ i, decode 0xC9000063 = .ok i ∧ i.wellFormed = false) ∧ 11 ≤ (opField 0xC9000063).toNat ∧
    (opField 0xC9000063).toNat ≤ 13 ∧ ¬ 11 ≤ (opField 0x9F173B3B).toNat := by
  refine ⟨⟨presented (.issue .main 0xC9000063) s0, rfl, rfl, rfl, rfl⟩, by decide, by decide, ?_, ?_, by decide, by decide,
    ⟨.cfgCommit 6, by decide, by decide⟩, ?_, by decide, by decide, by decide⟩
  · simp only [permitted]; decide
  · simp only [permitted]; decide
  · rintro ⟨i, hd, hw⟩
    rw [show decode 0xC9000063 = .ok (.cfgWr 9 99) by decide] at hd
    cases hd
    exact absurd hw (by decide)

theorem witness_AFaultingCommandWritesOnlyTheFaultRegister :
    ∃ t : State, exec .cfgLoad { s0 with issuer := .edge } = .next t ∧ t.fault ≠ s0.fault := ⟨_, rfl, by decide⟩

theorem witness_FaultedBlockStandsUntilReset :
    ∃ (s : State) (r : FaultRecord), s.fault = some r ∧ s.resets = false ∧ s.inputs = [.issue .timer 0] :=
  ⟨{ presented (.issue .timer 0) s0 with fault := some ⟨.illegalOpcode, .main, 0xE0000000⟩ }, _, rfl, rfl, rfl⟩

theorem witness_ResetEventRestoresTheResetValues : ∃ s : State, s.inputs = .reset :: [] ∧ s.busy = some .loadFinish :=
  ⟨{ presented .reset busyDay with busy := some .loadFinish }, rfl, rfl⟩

/-- The last byte of the last slot, the first byte of the first slot, and the first byte of the last slot. -/
theorem witness_ResetDuringAWriteTearsOnlyThatByte :
    (∃ s : State, s.Inv ∧ s.fault = none ∧ s.inputs = .resetDuring 0 :: [] ∧ writesNext s 0 23) ∧
    (∃ s : State, s.Inv ∧ s.fault = none ∧ s.inputs = .resetDuring 0 :: [] ∧ writesNext s 0 0) ∧
    (∃ s : State, s.Inv ∧ s.fault = none ∧ s.inputs = .resetDuring 0xD5000000 :: [] ∧ writesNext s 0xD5000000 20) := by
  refine ⟨⟨{ presented (.resetDuring 0) busyDay with busy := some (.commit [(23, 2)]) }, ?_, rfl, rfl, .inl ⟨2, [], rfl⟩⟩,
    ⟨{ presented (.resetDuring 0) busyDay with busy := some (.loadRewrite 0 [(0, 6)]) }, ?_, rfl, rfl,
      .inr (.inl ⟨0, 6, [], rfl⟩)⟩,
    ⟨presented (.resetDuring 0xD5000000) busyDay, ?_, rfl, rfl, .inr (.inr ⟨rfl, rfl, 5, by decide, by decide, by decide⟩)⟩⟩
  · exact inv_of_busyDay _ ⟨rfl, rfl, rfl, rfl, rfl, rfl, rfl, rfl, rfl⟩ fun _ h => by cases h; decide
  · exact inv_of_busyDay _ ⟨rfl, rfl, rfl, rfl, rfl, rfl, rfl, rfl, rfl⟩ fun _ h => by cases h; decide
  · exact inv_of_busyDay _ ⟨rfl, rfl, rfl, rfl, rfl, rfl, rfl, rfl, rfl⟩ fun _ h => nomatch h

/-- A halted block with a commit in progress, and a running one inside a load's validate step. -/
theorem witness_ResetDuringNoWriteIsAPlainReset :
    (∃ s : State, s.inputs = .resetDuring 0 :: [] ∧ s.fault ≠ none ∧ writesNext s 0 23) ∧
    (∃ s : State, s.inputs = .resetDuring 0 :: [] ∧ s.fault = none ∧ ∀ a, ¬ writesNext s 0 a) := by
  refine ⟨⟨{ presented (.resetDuring 0) busyDay with
      busy := some (.commit [(23, 2)]), fault := some ⟨.wrongAgent, .edge, 0⟩ }, rfl, by decide, .inl ⟨2, [], rfl⟩⟩,
    ⟨{ presented (.resetDuring 0) busyDay with busy := some (.loadValidate 5) }, rfl, rfl, ?_⟩⟩
  rintro a (⟨_, _, h⟩ | ⟨_, _, _, h⟩ | ⟨h, _⟩) <;> cases h

theorem witness_UnmaskedTickRunsOneMuxStep :
    ∃ s : State, s.issuer = .timer ∧ s.muxMasked = false ∧ s.phase = 11 ∧ s.dimCnt = 9 ∧ s.dimLevel = 9 :=
  ⟨{ busyDay with issuer := .timer, phase := 11 }, rfl, rfl, rfl, rfl, rfl⟩

theorem witness_MaskedTickOnlyLatchesARequest : ∃ s : State, s.issuer = .timer ∧ s.muxMasked = true ∧ s.muxPending = true :=
  ⟨{ s0 with issuer := .timer, muxPending := true }, rfl, rfl, rfl⟩

theorem witness_DimSetWritesTheLevel : (9 : Byte).toNat < 10 ∧ s0.issuer = .main := by decide

theorem witness_MuxMaskSetsTheMask : s0u.issuer = .main ∧ s0u.muxMasked = false := by decide

theorem witness_MuxUnmaskRunsTheLatchedStep :
    (s0.issuer = .main ∧ s0.muxPending = false) ∧ ∃ s : State, s.issuer = .main ∧ s.muxPending = true :=
  ⟨by decide, { s0 with muxPending := true }, rfl, rfl⟩

theorem witness_CounterReadsGoToTheIssuersRegister :
    (∃ s : State, s.issuer = .main ∧ s.tickCnt = 255) ∧ ∃ s : State, s.issuer = .edge ∧ s.debCnt = 3 :=
  ⟨⟨busyDay, rfl, rfl⟩, { busyDay with issuer := .edge }, rfl, rfl⟩

theorem witness_OnlyReadCommandsWriteTheIssuersResultRegister :
    (∃ t : State, exec .tickRd busyDay = .next t ∧ t.rdataMain ≠ busyDay.rdataMain) ∧
    (∃ t : State, exec .debRd { busyDay with issuer := .edge } = .next t ∧ t.rdataEdge ≠ busyDay.rdataEdge) :=
  ⟨⟨_, rfl, by decide⟩, _, rfl, by decide⟩

theorem witness_DebLoadLoadsTheCounter :
    (s0.issuer = .main ∨ s0.issuer = .edge) ∧ ∃ s : State, s.issuer = .main ∨ s.issuer = .edge :=
  ⟨.inl rfl, { s0 with issuer := .edge }, .inr rfl⟩

theorem witness_AFrameShowsEveryCellInItsPhase : busyDay.phase = 0 ∧ busyDay.dimLevel ≤ busyDay.dimCnt := by decide

/-- V-M3's five ticks. -/
theorem witness_MaskedTicksCoalesceIntoOneStep :
    ∃ (s : State) (rest : List Event), s.fault = none ∧ s.busy = none ∧ s.muxMasked = true ∧ 0 < 5 ∧
      s.inputs = List.replicate 5 (.issue .timer 0x00000000) ++ .issue .main 0x50000000 :: rest :=
  ⟨{ s0 with inputs := List.replicate 5 (.issue .timer 0) ++ [.issue .main 0x50000000] }, [], rfl, rfl, rfl, by decide, rfl⟩

theorem witness_OnlyAMuxStepMovesTheMultiplexer :
    (∃ s t : State, step s = .next t ∧ s.resets = false ∧ s.runsMuxStep = false) ∧
    (∃ s t : State, step s = .next t ∧ s.resets = false ∧ s.runsMuxStep = true ∧ s.phase = 11 ∧ s.tickCnt = 255) :=
  ⟨⟨presented (.issue .timer 0) s0, _, rfl, rfl, by decide⟩,
    ⟨{ presented (.issue .timer 0) busyDay with phase := 11 }, _, rfl, rfl, by decide, rfl, rfl⟩⟩

theorem witness_BufWrWritesItsCell : (11 : BitVec 4).toNat < 12 ∧ s0.issuer = .main := by decide

theorem witness_BufRdReadsItsCell : (11 : BitVec 4).toNat < 12 ∧ s0.issuer = .main := by decide

theorem witness_AnimStepComputesTheLanes :
    (23 : Byte).toNat < 24 ∧ (59 : Byte).toNat < 60 ∧ busyDay.issuer = .main ∧
    ((10 : BitVec 4) = 10 ∧ busyDay.lastIdx = some 10 ∧ busyDay.lastMin = some 59) ∧
    ¬ ((10 : BitVec 4) = 10 ∧ busyDay.lastIdx = some 10 ∧ busyDay.lastMin = some 58) ∧
    ¬ ((15 : BitVec 4) = 10 ∧ busyDay.lastIdx = some 10 ∧ busyDay.lastMin = some 59) := by decide

theorem witness_LaneSubStepsWriteTheEightLanes :
    ∃ (s : State) (lanes : Vector Byte 8), 0 ≤ 8 ∧ 8 ≤ 8 ∧ s.fault = none ∧ s.busy = some (.anim 0 lanes) ∧
      s.inputs = alone 8 ++ [] :=
  ⟨{ s0 with busy := some (.anim 0 (Vector.replicate 8 0xFF)), inputs := alone 8 }, _, by decide, by decide, rfl, rfl, rfl⟩

theorem witness_LitSetsOfAnimationsZeroToEight : (0 : BitVec 4).toNat ≤ 8 ∧ (8 : BitVec 4).toNat ≤ 8 := by decide

theorem witness_LitSetsOfAnimationsNineToFifteen :
    (9 ≤ (9 : BitVec 4).toNat ∧ (9 : BitVec 4).toNat ≤ 13) ∧ 9 ≤ (13 : BitVec 4).toNat ∧ (13 : BitVec 4).toNat ≤ 13 := by decide

theorem witness_CumulativeFillLightsExactlySecondsLeds :
    ∃ s : State, s.params.wf = true ∧ s.fault = none ∧ s.busy = none ∧ (23 : Byte).toNat < 24 ∧ (59 : Byte).toNat < 60 ∧
      s.inputs = .issue .main (encode (.animStep 3 23 59 59)) :: (alone 8 ++ []) :=
  ⟨{ s0 with inputs := .issue .main (encode (.animStep 3 23 59 59)) :: alone 8 }, witness_invariant.params, rfl, rfl,
    by decide, by decide, rfl⟩

theorem witness_CfgRdReadsTheShadow : (9 : BitVec 4).toNat < 10 ∧ busyDay.issuer = .main ∧ busyDay.cfgLoaded = true := by decide

theorem witness_CfgWrWritesTheShadowAlone :
    (9 : BitVec 4).toNat < 10 ∧ busyDay.issuer = .main ∧ busyDay.cfgLoaded = true ∧
    legalFieldValue (9 : BitVec 4).toNat (99 : Byte).toNat = true := by decide

theorem witness_CfgCommitWritesItsFirstByte :
    (5 : BitVec 4).toNat < 6 ∧ busyDay.Inv ∧ busyDay.issuer = .main ∧ busyDay.cfgLoaded = true :=
  ⟨by decide, witness_invariant, rfl, rfl⟩

/-- The last group, before its first sub-step and after its last. -/
theorem witness_CommitPersistsItsGroup :
    ∃ (s : State) (h : (5 : BitVec 4).toNat < 6), s.Inv ∧ s.cfgLoaded = true ∧ s.fault = none ∧ s.busy = none ∧
      0 ≤ (tableFields ⟨_, h⟩).length ∧ 3 ≤ (tableFields ⟨_, h⟩).length ∧
      s.inputs = .issue .main (encode (.cfgCommit 5)) :: (alone (tableFields ⟨_, h⟩).length ++ []) :=
  ⟨{ busyDay with inputs := .issue .main (encode (.cfgCommit 5)) :: alone 3 }, by decide,
    inv_of_busyDay _ ⟨rfl, rfl, rfl, rfl, rfl, rfl, rfl, rfl, rfl⟩ (fun _ h => nomatch h), rfl, rfl, rfl, by decide, by decide,
    rfl⟩

/-- `EE_OK` passes in group 0, an erased part does not. -/
theorem witness_CfgLoadReadsAndValidatesGroupZero :
    (busyDay.params.wf = true ∧ busyDay.issuer = .main ∧
      busyDay.ee.read busyDay.params.eeBase + busyDay.ee.read (busyDay.params.eeBase + 1) +
        busyDay.ee.read (busyDay.params.eeBase + 2) = busyDay.ee.read (busyDay.params.eeBase + 3)) ∧
    (s0.params.wf = true ∧ s0.issuer = .main ∧
      s0.ee.read s0.params.eeBase + s0.ee.read (s0.params.eeBase + 1) + s0.ee.read (s0.params.eeBase + 2) ≠
        s0.ee.read (s0.params.eeBase + 3)) :=
  ⟨⟨witness_invariant.params, rfl, by decide⟩, witness_invariant.params, rfl, by decide⟩

/-- V-C1's store passes in every group; V-C5's fails in group 3. -/
theorem witness_LoadLeavesEveryGroupValid :
    (busyDay.Inv ∧ busyDay.fault = none ∧ busyDay.busy = none ∧ validSlot busyDay 5) ∧
    ¬ validSlot { busyDay with ee := (eeOk.write 12 5).write 13 6 } 3 :=
  ⟨⟨witness_invariant, rfl, rfl, by decide⟩, by decide⟩

/-- `busyDay` at MAIN's turn, with a command in progress. -/
def midway (p : Progress) : State := { presented .proceed busyDay with busy := some p }

/-- Every position, at its first and its last place; and a load's group that fails (the erased part's group 5). -/
theorem witness_OneSubStepFromEveryPosition :
    (∀ p ∈ [Progress.anim 0 (Vector.replicate 8 1), .anim 7 (Vector.replicate 8 1), .loadValidate 0, .loadValidate 5] ++
        [.loadRewrite 0 [(0, 6), (1, 30), (2, 0), (3, 36)], .loadRewrite 5 [(23, 2)], .loadFinish] ++
        [.commit [(20, 1), (21, 1), (22, 0), (23, 2)], .commit [(23, 2)]],
      (midway p).Inv ∧ (midway p).fault = none ∧ (midway p).inputs = .proceed :: [] ∧ (midway p).busy = some p) ∧
    validSlot (midway (.loadValidate 5)) 5 ∧ ¬ validSlot { midway (.loadValidate 5) with ee := [] } 5 := by
  refine ⟨fun p hp => ⟨inv_of_busyDay _ ⟨rfl, rfl, rfl, rfl, rfl, rfl, rfl, rfl, rfl⟩ fun q hq => ?_, rfl, rfl, rfl⟩,
    by decide, by decide⟩
  cases hq
  revert p hp
  decide

theorem witness_ErasedSlotPassesIffSingleField :
    ∀ k, k < 4 → s0.ee.read (s0.params.eeBase + 4 * (5 : Fin 6).val + k) = 0xFF := by decide

theorem witness_ChecksumIsBlindToOrderAndCompensation : ([30, 6, 0] : List Byte).Perm [6, 30, 0] := by decide

theorem witness_OnlyLoadAndCommitWriteTheEeprom :
    (∃ s t : State, s.ee.wf = true ∧ step s = .next t ∧ s.resets = false ∧ t.ee.read 13 ≠ s.ee.read 13 ∧
      s.busy = some (.commit [(13, 7)])) ∧
    (∃ s t : State, s.ee.wf = true ∧ step s = .next t ∧ s.resets = false ∧ t.ee.read 12 ≠ s.ee.read 12 ∧
      s.busy = some (.loadRewrite 3 [(12, 5), (13, 5)])) ∧
    (∃ s t : State, s.ee.wf = true ∧ step s = .next t ∧ s.resets = false ∧ t.ee.read 20 ≠ s.ee.read 20 ∧ s.busy = none) :=
  ⟨⟨{ presented .proceed busyDay with busy := some (.commit [(13, 7)]) }, _, by decide, rfl, rfl, by decide, rfl⟩,
    ⟨{ presented .proceed busyDay with busy := some (.loadRewrite 3 [(12, 5), (13, 5)]) }, _, by decide, rfl, rfl, by decide,
      rfl⟩,
    ⟨{ presented (.issue .main 0xD5000000) busyDay with cfg := busyDay.cfg.set 7 31 }, _, by decide, rfl, rfl,
      by decide +kernel, rfl⟩⟩

/-- The last byte of the last slot is being committed. -/
theorem witness_EveryStepKeepsTheInvariant :
    ∃ s t : State, s.Inv ∧ step s = .next t ∧ s.busy = some (.commit [(23, 2)]) ∧ t.busy = none :=
  ⟨{ presented .proceed busyDay with busy := some (.commit [(23, 2)]) }, _,
    inv_of_busyDay _ ⟨rfl, rfl, rfl, rfl, rfl, rfl, rfl, rfl, rfl⟩ fun _ h => by cases h; decide, rfl, rfl, rfl⟩

theorem witness_NoStepStopsTheMachine : busyDay.Inv := witness_invariant

theorem witness_NoStepChangesTheParameters : ∃ t : State, step (presented (.issue .main 0xA0000000) busyDay) = .next t :=
  ⟨_, rfl⟩

theorem witness_InterruptStepsLeaveMainAlone :
    (∃ s t : State, s.inputs = .issue .timer 0 :: [] ∧ Agent.timer ≠ .main ∧ step s = .next t) ∧
    (∃ s t : State, s.inputs = .issue .edge 0x80000000 :: [] ∧ Agent.edge ≠ .main ∧ step s = .next t) :=
  ⟨⟨presented (.issue .timer 0) busyDay, _, rfl, by decide, rfl⟩,
    ⟨presented (.issue .edge 0x80000000) busyDay, _, rfl, by decide, rfl⟩⟩

theorem witness_MainsNextWordWaitsForItsCommand :
    ∃ (s : State) (p : Progress), s.Inv ∧ s.fault = none ∧ s.busy = some p ∧ s.inputs = .issue .main 0xB5000000 :: [] :=
  ⟨{ presented (.issue .main 0xB5000000) busyDay with busy := some (.commit [(23, 2)]) }, _,
    inv_of_busyDay _ ⟨rfl, rfl, rfl, rfl, rfl, rfl, rfl, rfl, rfl⟩ fun _ h => by cases h; decide, rfl, rfl, rfl⟩

end Sys2Proof.Tests
end

section
/-! SUPPORT. A word that decodes is its command's own word (R87), and it matches a row of the mask table of R82; a reserved
word decodes to its opcode's constructor. -/

namespace Sys2Proof

/-- A command that decoding accepts is spelled by the word it came from (R87). -/
theorem encode_of_decode {w : Word} {i : Instr} (h : decode w = .ok i) : encode i = w := by
  have hop := opcode_of_decode h
  have hfields := packWord_fields w
  have hrest := opField_append_rest w
  rw [← hop] at hfields hrest
  cases i <;> simp [decode, ← hop, Instr.opcode] at h <;> simp_all [encode, Instr.opcode]

theorem decode_of_opField_E {w : Word} (h : opField w = 0xE) : decode w = .ok (.reservedE (w.extractLsb' 0 28)) := by
  simp [decode, h]

theorem decode_of_opField_F {w : Word} (h : opField w = 0xF) : decode w = .ok (.reservedF (w.extractLsb' 0 28)) := by
  simp [decode, h]

/-- Masking a word is masking each of its fields (R80). -/
theorem packWord_and (op sel op' sel' : BitVec 4) (b2 b1 b0 b2' b1' b0' : Byte) :
    packWord op sel b2 b1 b0 &&& packWord op' sel' b2' b1' b0' =
      packWord (op &&& op') (sel &&& sel') (b2 &&& b2') (b1 &&& b1') (b0 &&& b0') := by
  unfold packWord
  rw [← BitVec.and_append, ← BitVec.and_append, ← BitVec.and_append, ← BitVec.and_append]

/-- A row of the mask table, field by field (R82). -/
theorem row_accepts_iff (r : Row) (w : Word) :
    r.accepts w = true ↔ packWord (opField w &&& opField r.mask) (selField w &&& selField r.mask)
      (b2Field w &&& b2Field r.mask) (b1Field w &&& b1Field r.mask) (b0Field w &&& b0Field r.mask) = r.pattern := by
  rw [← packWord_and, packWord_fields, packWord_fields, Row.accepts, beq_iff_eq]

/-- Every command's word matches a row, the one of its opcode (R82). -/
theorem exists_row_accepts_encode (i : Instr) : ∃ r ∈ opcodeRows, r.accepts (encode i) = true := by
  have hlt : i.opcode.toNat < opcodeRows.length := i.opcode.isLt
  refine ⟨opcodeRows[i.opcode.toNat], List.getElem_mem hlt, (row_accepts_iff _ _).2 ?_⟩
  cases i <;> simp [encode, Instr.opcode, opcodeRows] <;> simp [opField, selField, b2Field, b1Field, b0Field, packWord]

/-- A word that no row of the table accepts is rejected for its unused fields (R84). -/
theorem decode_of_no_row {w : Word} (h : ∀ r ∈ opcodeRows, r.accepts w = false) :
    decode w = .reservedField (opField w) := by
  cases hd : decode w with
  | reservedField op => rw [opcode_of_rejected hd]
  | ok i =>
    obtain ⟨r, hr, haccepts⟩ := exists_row_accepts_encode i
    rw [encode_of_decode hd, h r hr] at haccepts
    cases haccepts

end Sys2Proof
end

section
/-! SUPPORT. Who may issue what, when the checks answer each fault, and what issuing a word comes to (R83, R85, R86, R87). -/

namespace Sys2Proof.Machine

open Sys2Proof.Terms

/-! ### The "Agents" column (R86) -/

/-- The machine's table of agents says what the "Agents" column of R82 says. -/
theorem mayIssue_iff_permitted (op : BitVec 4) (a : Agent) : mayIssue op a = true ↔ permitted a op.toNat := by
  cases a <;> revert op <;> unfold permitted <;> decide

/-- No agent may issue a reserved opcode. -/
theorem isReserved_eq_false_of_mayIssue {op : BitVec 4} {a : Agent} (h : mayIssue op a = true) : isReserved op = false := by
  cases a <;> revert op <;> decide

/-- The reserved opcodes are those above 13 (R83). -/
theorem isReserved_eq_false_iff (op : BitVec 4) : isReserved op = false ↔ op.toNat ≤ 13 := by
  revert op
  decide

/-! ### When the checks answer a fault (R87, R262) -/

variable {i : Instr} {s : State}

theorem admission_eq_wrongAgent_iff (i : Instr) (s : State) :
    admission i s = some .wrongAgent ↔ isReserved i.opcode = false ∧ mayIssue i.opcode s.issuer = false := by
  unfold admission
  cases isReserved i.opcode <;> cases mayIssue i.opcode s.issuer <;> cases operandsInRange i <;>
    cases needsConfig i <;> cases s.cfgLoaded <;> simp

theorem admission_eq_operandRange_iff (i : Instr) (s : State) :
    admission i s = some .operandRange ↔
      isReserved i.opcode = false ∧ mayIssue i.opcode s.issuer = true ∧ operandsInRange i = false := by
  unfold admission
  cases isReserved i.opcode <;> cases mayIssue i.opcode s.issuer <;> cases operandsInRange i <;>
    cases needsConfig i <;> cases s.cfgLoaded <;> simp

/-- For a permitted agent, `OPERAND_RANGE` is exactly a command that is not well formed (R85). -/
theorem admission_eq_operandRange_iff_of_mayIssue (h : mayIssue i.opcode s.issuer = true) :
    admission i s = some .operandRange ↔ i.wellFormed = false := by
  have hr := isReserved_eq_false_of_mayIssue h
  rw [admission_eq_operandRange_iff, operandsInRange_eq_wellFormed i hr]
  simp [hr, h]

/-! ### No command's effect touches the fault register -/

theorem validateStep_fault {g : Fin 6} {t : State} (h : validateStep g s = .next t) : t.fault = s.fault := by
  obtain ⟨-, -, hv⟩ | ⟨-, -, hv⟩ | ⟨-, hv⟩ := validateStep_cases g s <;> rw [hv] at h <;> cases h <;> rfl

theorem commitStep_fault {cells : List Host.Cell} {t : State} (h : commitStep cells s = .next t) : t.fault = s.fault := by
  match cells with
  | [] => cases h; rfl
  | (a, v) :: more =>
    obtain ⟨-, hc⟩ | ⟨-, hc⟩ := commitStep_cases a v more s <;> rw [hc] at h <;> cases h
    rfl

theorem animCompute_fault (k : BitVec 4) (hour m sec : Byte) (s : State) :
    (animCompute k hour m sec s).fault = s.fault := by
  obtain ⟨-, ha⟩ | ⟨-, ha⟩ := animCompute_cases s k hour m sec <;> rw [ha] <;> rfl

/-- The effect of an admitted command leaves the fault register alone. -/
theorem effectOf_fault {t : State} (h : effectOf i s = .next t) : t.fault = s.fault := by
  cases i with
  | cfgLoad => exact validateStep_fault h
  | cfgCommit g => exact commitStep_fault h
  | animStep k hour m sec => cases h; exact animCompute_fault ..
  | tick => cases h; split <;> simp
  | muxUnmask => cases h; split <;> simp
  | _ => cases h; simp

/-- A fault that a command leaves behind is the one the checks answered. -/
theorem admission_of_exec_fault {t : State} {r : FaultRecord} (hs : s.fault = none) (h : exec i s = .next t)
    (hr : t.fault = some r) : admission i s = some r.code := by
  obtain ⟨hadm, he⟩ | ⟨code, hadm, he⟩ := exec_cases i s <;> rw [he] at h
  · rw [effectOf_fault h, hs] at hr
    cases hr
  · cases h
    cases hr
    exact hadm

/-! ### Issuing a word -/

/-- The step of a word that finds the block running, and MAIN free if the word is MAIN's, is that word's issue (R6, R87). -/
theorem step_of_issue {a : Agent} {w : Word} {rest : List Event} (running : s.fault = none)
    (entry : s.inputs = .issue a w :: rest) (free : a = .main → s.busy = none) :
    step s = issueWord a w (s.setInputs rest) := by
  cases a <;> simp_all [step, handleEvent]

/-- A word rejected by the decoder takes `RESERVED_FIELD`, or `WRONG_AGENT` from a foreign agent (R84, R86). -/
theorem issueWord_of_rejected {a : Agent} {w : Word} {op : BitVec 4} (s : State) (h : decode w = .reservedField op) :
    issueWord a w s =
      .next ((s.setIssuer a).takeFault (if mayIssue (opField w) a then .reservedField else .wrongAgent) w) := by
  rw [issueWord, h, opcode_of_rejected h]

/-- A word whose command the checks refuse takes their fault, with the issued word on record (R261). -/
theorem issueWord_of_refused {a : Agent} {w : Word} {code : FaultCode} (hd : decode w = .ok i)
    (h : admission i (s.setIssuer a) = some code) : issueWord a w s = .next ((s.setIssuer a).takeFault code w) := by
  rw [issueWord_of_decoded s hd, exec_of_refused h, encode_of_decode hd]

/-- A word from an agent that may not issue it takes `WRONG_AGENT`, rejected by the decoder or not (R86). -/
theorem issueWord_of_foreign {a : Agent} {w : Word} (s : State) (hop : isReserved (opField w) = false)
    (h : mayIssue (opField w) a = false) : issueWord a w s = .next ((s.setIssuer a).takeFault .wrongAgent w) := by
  cases hd : decode w with
  | reservedField op => simp [issueWord_of_rejected s hd, h]
  | ok i =>
    rw [← opcode_of_decode hd] at hop h
    exact issueWord_of_refused hd ((admission_eq_wrongAgent_iff i _).2 ⟨hop, h⟩)

/-- A word from an agent that may issue it never leaves `WRONG_AGENT` behind (R86). -/
theorem issueWord_code_ne_wrongAgent {a : Agent} {w : Word} {t : State} {r : FaultRecord} (running : s.fault = none)
    (h : mayIssue (opField w) a = true) (ht : issueWord a w s = .next t) (hr : t.fault = some r) :
    r.code ≠ .wrongAgent := by
  cases hd : decode w with
  | reservedField op =>
    rw [issueWord_of_rejected s hd, if_pos h] at ht
    cases ht
    cases hr
    simp
  | ok i =>
    rw [issueWord_of_decoded s hd] at ht
    intro hcode
    have hadm := admission_of_exec_fault (s := s.setIssuer a) running ht hr
    rw [hcode, admission_eq_wrongAgent_iff, opcode_of_decode hd] at hadm
    simp [h] at hadm

/-! ### The statements about the encoding's faults -/

/-- Settles O10: the decoder's rejection and the checks of a decoded command both put the agent first. -/
theorem foreignAgentRaisesWrongAgent : Obligations.ForeignAgentRaisesWrongAgent := by
  intro s a w rest running entry free hop
  rw [step_of_issue running entry free, ← mayIssue_iff_permitted]
  constructor
  · intro foreign
    exact issueWord_of_foreign _ ((isReserved_eq_false_iff _).2 hop) (by simpa using foreign)
  · intro own t r ht hr
    exact issueWord_code_ne_wrongAgent (s := s.setInputs rest) running own ht hr

/-- Settles O11: a word outside the mask table is one the decoder rejects. -/
theorem nonzeroUnusedFieldRaisesReservedField : Obligations.NonzeroUnusedFieldRaisesReservedField := by
  intro s a w rest running entry free own norow
  rw [step_of_issue running entry free, issueWord_of_rejected _ (decode_of_no_row norow),
    if_pos ((mayIssue_iff_permitted _ _).2 own)]
  rfl

/-- Settles O12: for a permitted agent the range check is well-formedness, and no effect writes the fault register. -/
theorem outOfRangeOperandRaisesOperandRange : Obligations.OutOfRangeOperandRaisesOperandRange := by
  intro i s own
  have hrange := admission_eq_operandRange_iff_of_mayIssue ((mayIssue_iff_permitted _ _).2 own)
  constructor
  · intro bad
    exact exec_of_refused (hrange.2 bad)
  · intro good running t r ht hr hcode
    have hadm := admission_of_exec_fault running ht hr
    rw [hcode, hrange, good] at hadm
    cases hadm

/-- Settles O9: a reserved word decodes to a constructor the checks refuse before anything else. -/
theorem reservedOpcodeRaisesIllegalOpcode : Obligations.ReservedOpcodeRaisesIllegalOpcode := by
  intro s a w rest running entry free hop
  rw [step_of_issue running entry free]
  obtain hE | hF := hop
  · exact issueWord_of_refused (decode_of_opField_E hE) (admission_reservedE _ _)
  · exact issueWord_of_refused (decode_of_opField_F hF) (admission_reservedF _ _)

end Sys2Proof.Machine
end

section
/-! SUPPORT. Who changes an EEPROM byte (R111): of the sub-steps those that write one, of the commands `CFG_COMMIT` alone. -/

namespace Sys2Proof.Machine

open Sys2Proof.Terms

variable {s t : State} {a : Nat}

/-! ### Sub-steps -/

/-- A byte that a write changes is the one at its address, and it then holds the byte written. -/
theorem writeThen_changes {b : Nat} {v : Byte} {after : State → State} (canonical : s.ee.wf = true)
    (h : writeThen b v s after = .next t) (changed : t.ee.read a ≠ s.ee.read a) (keeps : ∀ u, (after u).ee = u.ee) :
    a = b ∧ t.ee.read a = v := by
  obtain ⟨-, hw⟩ | ⟨-, hw⟩ := writeThen_cases b v s after <;> rw [hw] at h <;> cases h
  rw [keeps] at changed ⊢
  by_cases hab : a = b
  · subst hab
    exact ⟨rfl, read_write_same a v canonical⟩
  · exact absurd (read_write_other b a v canonical hab) changed

/-- A read-and-validate sub-step reads the EEPROM and leaves it as it is (R105). -/
theorem validateStep_ee {g : Fin 6} (h : validateStep g s = .next t) : t.ee = s.ee := by
  obtain ⟨-, -, hv⟩ | ⟨-, -, hv⟩ | ⟨-, hv⟩ := validateStep_cases g s <;> rw [hv] at h <;> cases h <;> rfl

/-- A rewrite sub-step changes no byte but its next one (R107). -/
theorem rewriteStep_changes {g : Fin 6} {cells : List Host.Cell} (canonical : s.ee.wf = true)
    (h : rewriteStep g cells s = .next t) (changed : t.ee.read a ≠ s.ee.read a) :
    ∃ v more, cells = (a, v) :: more ∧ t.ee.read a = v := by
  match cells with
  | [] => cases h; exact absurd rfl changed
  | (b, v) :: more =>
    rw [rewriteStep] at h
    obtain ⟨rfl, holds⟩ := writeThen_changes canonical h changed fun _ => rfl
    exact ⟨v, more, rfl, holds⟩

/-- A commit sub-step changes no byte but its next one (R110). -/
theorem commitStep_changes {cells : List Host.Cell} (canonical : s.ee.wf = true)
    (h : commitStep cells s = .next t) (changed : t.ee.read a ≠ s.ee.read a) :
    ∃ v more, cells = (a, v) :: more ∧ t.ee.read a = v := by
  match cells with
  | [] => cases h; exact absurd rfl changed
  | (b, v) :: more =>
    rw [commitStep] at h
    obtain ⟨rfl, holds⟩ := writeThen_changes canonical h changed fun _ => rfl
    exact ⟨v, more, rfl, holds⟩

/-- A sub-step that changes a byte is a rewrite or a commit in progress, and the byte is its next one (R111). -/
theorem subStep_changes {p : Progress} (inProgress : s.busy = some p) (canonical : s.ee.wf = true)
    (h : subStep p s = .next t) (changed : t.ee.read a ≠ s.ee.read a) :
    (∃ g v more, s.busy = some (.loadRewrite g ((a, v) :: more)) ∧ t.ee.read a = v) ∨
    (∃ v more, s.busy = some (.commit ((a, v) :: more)) ∧ t.ee.read a = v) := by
  cases p with
  | anim j lanes => cases h; exact absurd rfl changed
  | loadValidate g => exact absurd (by rw [validateStep_ee h]) changed
  | loadRewrite g cells =>
    obtain ⟨v, more, rfl, holds⟩ := rewriteStep_changes canonical h changed
    exact .inl ⟨g, v, more, inProgress, holds⟩
  | loadFinish => cases h; exact absurd rfl changed
  | commit cells =>
    obtain ⟨v, more, rfl, holds⟩ := commitStep_changes canonical h changed
    exact .inr ⟨v, more, inProgress, holds⟩

/-! ### Commands -/

theorem animCompute_ee (k : BitVec 4) (hour m sec : Byte) (s : State) : (animCompute k hour m sec s).ee = s.ee := by
  obtain ⟨-, ha⟩ | ⟨-, ha⟩ := animCompute_cases s k hour m sec <;> rw [ha] <;> rfl

/-- The effect of every command but `CFG_COMMIT` leaves the EEPROM alone; `CFG_LOAD`'s first sub-step only reads it. -/
theorem effectOf_ee {i : Instr} (other : ∀ g, i ≠ .cfgCommit g) (h : effectOf i s = .next t) : t.ee = s.ee := by
  cases i with
  | cfgCommit g => exact absurd rfl (other g)
  | cfgLoad => exact validateStep_ee h
  | animStep k hour m sec => cases h; exact animCompute_ee ..
  | tick => cases h; split <;> simp
  | muxUnmask => cases h; split <;> simp
  | _ => cases h; simp

/-- The first byte of a slot stands at the slot's base (R103). -/
theorem slotBase_of_slotImage_eq_cons {p : Config.Params} {g : Fin 6} {vals : List Byte} {v : Byte}
    {more : List Host.Cell} (h : slotImage p g vals = (a, v) :: more) : a = slotBase p g := by
  cases vals <;> simp [slotImage] at h <;> exact h.1.1.symm

/-- A command that changes a byte is a `CFG_COMMIT` that passes the checks, and the byte is the first of its group's slot. -/
theorem exec_changes {i : Instr} (canonical : s.ee.wf = true) (h : exec i s = .next t)
    (changed : t.ee.read a ≠ s.ee.read a) :
    ∃ g, i = .cfgCommit g ∧ admission i s = none ∧ a = slotBase s.params (groupOf g) := by
  obtain ⟨admitted, he⟩ | ⟨code, -, he⟩ := exec_cases i s <;> rw [he] at h
  · by_cases hi : ∃ g, i = .cfgCommit g
    · obtain ⟨g, rfl⟩ := hi
      obtain ⟨v, more, himage, -⟩ := commitStep_changes canonical h changed
      exact ⟨g, rfl, admitted, slotBase_of_slotImage_eq_cons himage⟩
    · exact absurd (by rw [effectOf_ee (not_exists.1 hi) h]) changed
  · cases h
    exact absurd rfl changed

/-- An issued word that changes a byte is MAIN's `CFG_COMMIT` of a legal group, and the byte is the first of that group's
slot (R110, R111). -/
theorem issueWord_changes {agent : Agent} {w : Word} (canonical : s.ee.wf = true) (h : issueWord agent w s = .next t)
    (changed : t.ee.read a ≠ s.ee.read a) :
    agent = .main ∧ s.cfgLoaded = true ∧
      ∃ g : BitVec 4, g.toNat < 6 ∧ w = encode (.cfgCommit g) ∧ a = s.params.eeBase + 4 * g.toNat := by
  cases hd : decode w with
  | reservedField op =>
    rw [issueWord_of_rejected s hd] at h
    cases h
    exact absurd rfl changed
  | ok i =>
    rw [issueWord_of_decoded s hd] at h
    obtain ⟨g, rfl, admitted, rfl⟩ := exec_changes (s := s.setIssuer agent) canonical h changed
    obtain ⟨hagent, hg, loaded⟩ := (admission_cfgCommit _ g).1 admitted
    exact ⟨hagent, loaded, g, hg, (encode_of_decode hd).symm, by simp [slotBase, hg]⟩

/-! ### The statement about the EEPROM's writers -/

/-- Settles O52: an entry that is no RESET issues a word, takes a sub-step or leaves the EEPROM alone, and of words and
sub-steps the lemmas above name those that change a byte. -/
theorem onlyLoadAndCommitWriteTheEeprom : Obligations.OnlyLoadAndCommitWriteTheEeprom := by
  intro s t a canonical hstep noReset changed
  have hcase := step_cases s
  generalize step s = o at hstep hcase
  cases hcase with
  | idle hin => cases hstep; exact absurd rfl changed
  | reset rest hin => simp [State.resets, hin] at noReset
  | resetDuring w rest hin => simp [State.resets, hin] at noReset
  | passed e rest hin why => cases hstep; exact absurd rfl changed
  | issued agent w rest hin running free =>
    obtain ⟨rfl, loaded, g, hg, rfl, ha⟩ := issueWord_changes (s := s.setInputs rest) canonical hstep changed
    exact ⟨⟨running, .inr ⟨_, rest, hin⟩⟩, .inr (.inr ⟨free rfl, loaded, g, rest, hg, hin, ha⟩)⟩
  | continued p rest hin running hp =>
    have hwriter := subStep_changes (s := s.setInputs rest) hp canonical hstep changed
    exact ⟨⟨running, .inl ⟨rest, hin⟩⟩, or_assoc.1 (.inl hwriter)⟩
  | waiting w rest p hin running hp =>
    have hwriter := subStep_changes hp canonical hstep changed
    exact ⟨⟨running, .inr ⟨w, rest, hin⟩⟩, or_assoc.1 (.inl hwriter)⟩

end Sys2Proof.Machine
end

section
/-! SUPPORT. What `MuxStep` does to the debounce counter (R226), and what moves the phase, the counters of frames and ticks and
the lines (R225, R234): of the steps that are no RESET, those that run `MuxStep`. -/

namespace Sys2Proof.Machine

variable {s t : State}

/-! ### The debounce counter -/

/-- One `MuxStep` takes one off the debounce counter, and `Nat` subtraction stops where R226 does, at 0. -/
theorem muxStep_debCnt_toNat (s : State) : (muxStep s).debCnt.toNat = s.debCnt.toNat - 1 := by
  rw [muxStep_debCnt]
  split
  · next h => simp [h]
  · next h =>
    have hpos : s.debCnt.toNat ≠ 0 := fun h0 => h (BitVec.eq_of_toNat_eq h0)
    exact BitVec.toNat_sub_of_le (BitVec.le_def.2 (Nat.one_le_iff_ne_zero.2 hpos))

/-- Settles O30, by induction on the number of steps, the first step taken off the front. -/
theorem debounceCountsDownToZero : Obligations.DebounceCountsDownToZero := by
  intro n
  induction n with
  | zero => intro s; rfl
  | succ n ih =>
    intro s
    rw [Function.iterate_succ_apply, ih, muxStep_debCnt_toNat, Nat.sub_sub, Nat.add_comm]

/-! ### The registers that only `MuxStep` writes -/

/-- The phase, the dimming counter, the tick counter and the three line groups. -/
def State.muxRegs (s : State) : Fin 12 × Fin 10 × Byte × Byte × BitVec 4 × BitVec 8 :=
  (s.phase, s.dimCnt, s.tickCnt, s.outData, s.outDsel, s.outLsel)

theorem muxRegs_eq_iff :
    t.muxRegs = s.muxRegs ↔ t.phase = s.phase ∧ t.dimCnt = s.dimCnt ∧ t.tickCnt = s.tickCnt ∧ t.outData = s.outData ∧
      t.outDsel = s.outDsel ∧ t.outLsel = s.outLsel := by
  simp [State.muxRegs]

/-- What `MuxStep` makes of them depends on them, the display buffer and the dimming level alone (R220, R222). -/
theorem muxStep_muxRegs_congr (regs : t.muxRegs = s.muxRegs) (buf : t.buf = s.buf) (level : t.dimLevel = s.dimLevel) :
    (muxStep t).muxRegs = (muxStep s).muxRegs := by
  obtain ⟨hphase, hdim, htick, -⟩ := muxRegs_eq_iff.1 regs
  have hdrives : drives t = drives s := by simp only [drives, level, hdim]
  simp [muxRegs_eq_iff, hphase, hdim, htick, buf, hdrives]

/-! ### Sub-steps leave them alone -/

theorem validateStep_muxRegs {g : Fin 6} (h : validateStep g s = .next t) : t.muxRegs = s.muxRegs := by
  obtain ⟨-, -, hv⟩ | ⟨-, -, hv⟩ | ⟨-, hv⟩ := validateStep_cases g s <;> rw [hv] at h <;> cases h <;> rfl

theorem rewriteStep_muxRegs {g : Fin 6} {cells : List Host.Cell} (h : rewriteStep g cells s = .next t) :
    t.muxRegs = s.muxRegs := by
  match cells with
  | [] => cases h; rfl
  | (a, v) :: more =>
    obtain ⟨-, hr⟩ | ⟨-, hr⟩ := rewriteStep_cases g a v more s <;> rw [hr] at h <;> cases h
    rfl

theorem commitStep_muxRegs {cells : List Host.Cell} (h : commitStep cells s = .next t) : t.muxRegs = s.muxRegs := by
  match cells with
  | [] => cases h; rfl
  | (a, v) :: more =>
    obtain ⟨-, hc⟩ | ⟨-, hc⟩ := commitStep_cases a v more s <;> rw [hc] at h <;> cases h
    rfl

theorem subStep_muxRegs {p : Progress} (h : subStep p s = .next t) : t.muxRegs = s.muxRegs := by
  cases p with
  | anim j lanes => cases h; rfl
  | loadValidate g => exact validateStep_muxRegs h
  | loadRewrite g cells => exact rewriteStep_muxRegs h
  | loadFinish => cases h; rfl
  | commit cells => exact commitStep_muxRegs h

/-! ### Commands: `TICK` and `MUX_UNMASK` may run `MuxStep`, the others leave them alone -/

/-- Command `i` of the agent `s.issuer` runs `MuxStep` (R221, R229). -/
def commandRunsMuxStep (i : Instr) (s : State) : Bool :=
  match s.issuer with
  | .timer => i == .tick && !s.muxMasked
  | .main => i == .muxUnmask && s.muxPending
  | .edge => false

theorem animCompute_muxRegs (k : BitVec 4) (hour m sec : Byte) (s : State) :
    (animCompute k hour m sec s).muxRegs = s.muxRegs := by
  obtain ⟨-, ha⟩ | ⟨-, ha⟩ := animCompute_cases s k hour m sec <;> rw [ha] <;> rfl

theorem putResult_muxRegs (s : State) (v : Byte) : (s.putResult v).muxRegs = s.muxRegs := by
  simp [muxRegs_eq_iff]

/-- A command that runs `MuxStep` passes the checks. -/
theorem admission_of_commandRunsMuxStep {i : Instr} (h : commandRunsMuxStep i s = true) : admission i s = none := by
  unfold commandRunsMuxStep at h
  split at h
  · next hagent =>
    obtain ⟨rfl, -⟩ : i = .tick ∧ s.muxMasked = false := by simpa using h
    exact (admission_tick s).2 hagent
  · next hagent =>
    obtain ⟨rfl, -⟩ : i = .muxUnmask ∧ s.muxPending = true := by simpa using h
    exact (admission_muxUnmask s).2 hagent
  · cases h

/-- Any command but these two runs no `MuxStep`. -/
theorem commandRunsMuxStep_of_ne {i : Instr} (hTick : i ≠ .tick) (hUnmask : i ≠ .muxUnmask) :
    commandRunsMuxStep i s = false := by
  unfold commandRunsMuxStep
  split <;> simp [hTick, hUnmask]

/-- Unmasked, `TICK` runs `MuxStep`; masked, it only latches (R221). -/
theorem effectOf_tick_muxRegs (issuer : s.issuer = .timer) (h : effectOf .tick s = .next t) :
    t.muxRegs = if commandRunsMuxStep .tick s then (muxStep s).muxRegs else s.muxRegs := by
  cases h
  simp only [commandRunsMuxStep, issuer]
  cases s.muxMasked <;> rfl

/-- With a request latched, `MUX_UNMASK` runs `MuxStep`; without one it only clears the mask (R229). -/
theorem effectOf_muxUnmask_muxRegs (issuer : s.issuer = .main) (h : effectOf .muxUnmask s = .next t) :
    t.muxRegs = if commandRunsMuxStep .muxUnmask s then (muxStep s).muxRegs else s.muxRegs := by
  cases h
  simp only [commandRunsMuxStep, issuer]
  cases s.muxPending with
  | false => rfl
  | true => exact muxStep_muxRegs_congr (s := s) rfl rfl rfl

theorem effectOf_muxRegs_of_ne {i : Instr} (hTick : i ≠ .tick) (hUnmask : i ≠ .muxUnmask)
    (h : effectOf i s = .next t) : t.muxRegs = s.muxRegs := by
  cases i with
  | tick => exact absurd rfl hTick
  | muxUnmask => exact absurd rfl hUnmask
  | bufRd c => cases h; exact putResult_muxRegs ..
  | tickRd => cases h; exact putResult_muxRegs ..
  | debRd => cases h; exact putResult_muxRegs ..
  | cfgRd f => cases h; exact putResult_muxRegs ..
  | animStep k hour m sec => cases h; exact animCompute_muxRegs ..
  | cfgLoad => exact validateStep_muxRegs h
  | cfgCommit g => exact commitStep_muxRegs h
  | _ => cases h; rfl

/-- A command moves these registers as `MuxStep` does if it runs `MuxStep`, and not otherwise; a fault moves none of them. -/
theorem exec_muxRegs {i : Instr} (h : exec i s = .next t) :
    t.muxRegs = if commandRunsMuxStep i s then (muxStep s).muxRegs else s.muxRegs := by
  obtain ⟨admitted, he⟩ | ⟨code, refused, he⟩ := exec_cases i s <;> rw [he] at h
  · by_cases hTick : i = .tick
    · subst hTick
      exact effectOf_tick_muxRegs ((admission_tick s).1 admitted) h
    · by_cases hUnmask : i = .muxUnmask
      · subst hUnmask
        exact effectOf_muxUnmask_muxRegs ((admission_muxUnmask s).1 admitted) h
      · rw [commandRunsMuxStep_of_ne hTick hUnmask]
        exact effectOf_muxRegs_of_ne hTick hUnmask h
  · have hnot : ¬ commandRunsMuxStep i s = true := fun hruns => by
      simp [admission_of_commandRunsMuxStep hruns] at refused
    cases h
    rw [if_neg hnot]
    rfl

/-! ### Words: those of `TICK` and `MUX_UNMASK` are the two that `State.runsMuxStep` names -/

/-- Words that decode are equal exactly when their commands are (R80, R87). -/
theorem eq_iff_of_decode {v w : Word} {i j : Instr} (hw : decode w = .ok i) (hv : decode v = .ok j) : w = v ↔ i = j := by
  constructor
  · rintro rfl
    exact Decoded.ok.inj (hw.symm.trans hv)
  · rintro rfl
    exact (encode_of_decode hw).symm.trans (encode_of_decode hv)

/-- A rejected word is none that decodes (R84). -/
theorem ne_of_rejected {v w : Word} {i : Instr} {op : BitVec 4} (hw : decode w = .reservedField op)
    (hv : decode v = .ok i) : w ≠ v := by
  rintro rfl
  cases hw.symm.trans hv

theorem decode_tickWord : decode 0x00000000 = .ok .tick := by decide

theorem decode_muxUnmaskWord : decode 0x50000000 = .ok .muxUnmask := by decide

/-- Agent `a`'s word `w` runs `MuxStep`: `State.runsMuxStep` of a word that is issued. -/
def wordRunsMuxStep (a : Agent) (w : Word) (s : State) : Bool :=
  match a with
  | .timer => w == 0x00000000 && !s.muxMasked
  | .main => w == 0x50000000 && s.muxPending
  | .edge => false

theorem runsMuxStep_of_issue {a : Agent} {w : Word} {rest : List Event} (running : s.fault = none)
    (entry : s.inputs = .issue a w :: rest) (free : a = .main → s.busy = none) :
    s.runsMuxStep = wordRunsMuxStep a w s := by
  cases a <;> simp_all [State.runsMuxStep, State.halted, wordRunsMuxStep]

theorem wordRunsMuxStep_of_decoded {a : Agent} {w : Word} {i : Instr} (hd : decode w = .ok i) :
    wordRunsMuxStep a w s = commandRunsMuxStep i (s.setIssuer a) := by
  cases a with
  | timer =>
    simp only [wordRunsMuxStep, commandRunsMuxStep, setIssuer_issuer, setIssuer_muxMasked, beq_eq_decide,
      eq_iff_of_decode hd decode_tickWord]
  | main =>
    simp only [wordRunsMuxStep, commandRunsMuxStep, setIssuer_issuer, setIssuer_muxPending, beq_eq_decide,
      eq_iff_of_decode hd decode_muxUnmaskWord]
  | edge => rfl

theorem wordRunsMuxStep_of_rejected {a : Agent} {w : Word} {op : BitVec 4} (hd : decode w = .reservedField op) :
    wordRunsMuxStep a w s = false := by
  cases a with
  | timer => simp only [wordRunsMuxStep, beq_eq_false_iff_ne.2 (ne_of_rejected hd decode_tickWord), Bool.false_and]
  | main => simp only [wordRunsMuxStep, beq_eq_false_iff_ne.2 (ne_of_rejected hd decode_muxUnmaskWord), Bool.false_and]
  | edge => rfl

theorem issueWord_muxRegs {a : Agent} {w : Word} (h : issueWord a w s = .next t) :
    t.muxRegs = if wordRunsMuxStep a w s then (muxStep s).muxRegs else s.muxRegs := by
  cases hd : decode w with
  | reservedField op =>
    rw [issueWord_of_rejected s hd] at h
    cases h
    rw [wordRunsMuxStep_of_rejected hd]
    rfl
  | ok i =>
    rw [issueWord_of_decoded s hd] at h
    rw [wordRunsMuxStep_of_decoded hd, ← muxStep_muxRegs_congr (s := s) (t := s.setIssuer a) rfl rfl rfl]
    exact exec_muxRegs h

/-! ### The statement about what moves them -/

/-- After a step that is no RESET these registers are those `MuxStep` leaves if the step runs it, and unchanged if not. -/
theorem step_muxRegs (h : step s = .next t) (noReset : s.resets = false) :
    t.muxRegs = if s.runsMuxStep then (muxStep s).muxRegs else s.muxRegs := by
  have hcase := step_cases s
  generalize step s = o at h hcase
  cases hcase with
  | idle hin =>
    cases h
    simp [State.runsMuxStep, hin]
  | reset rest hin => simp [State.resets, hin] at noReset
  | resetDuring w rest hin => simp [State.resets, hin] at noReset
  | passed e rest hin why =>
    cases h
    have hnot : s.runsMuxStep = false := by
      obtain halted | ⟨rfl, -⟩ := why
      · simp [State.runsMuxStep, State.halted, halted]
      · simp [State.runsMuxStep, hin]
    rw [hnot]
    rfl
  | issued a w rest hin running free =>
    rw [runsMuxStep_of_issue running hin free, ← muxStep_muxRegs_congr (s := s) (t := s.setInputs rest) rfl rfl rfl]
    exact issueWord_muxRegs (s := s.setInputs rest) h
  | continued p rest hin running hp =>
    have hnot : s.runsMuxStep = false := by simp [State.runsMuxStep, hin]
    rw [hnot]
    exact subStep_muxRegs (s := s.setInputs rest) h
  | waiting w rest p hin running hp =>
    have hnot : s.runsMuxStep = false := by simp [State.runsMuxStep, hin, hp]
    rw [hnot]
    exact subStep_muxRegs h

/-- Settles O34: `step_muxRegs` gives the registers after the step, and `MuxStep` adds one to the phase modulo 12 and one to the
tick counter modulo 256. -/
theorem onlyAMuxStepMovesTheMultiplexer : Obligations.OnlyAMuxStepMovesTheMultiplexer := by
  intro s t hstep noReset
  have hregs := step_muxRegs hstep noReset
  constructor
  · intro hnot
    rw [if_neg (by simp [hnot])] at hregs
    exact muxRegs_eq_iff.1 hregs
  · intro hruns
    rw [if_pos hruns] at hregs
    obtain ⟨hphase, -, htick, -⟩ := muxRegs_eq_iff.1 hregs
    rw [hphase, htick, muxStep_phase, muxStep_tickCnt]
    exact ⟨Fin.val_add .., BitVec.toNat_add ..⟩

end Sys2Proof.Machine
end

section
/-! SUPPORT. A word that some row of the mask table accepts decodes (R82, R84), and when the checks answer `CONFIG_NOT_LOADED`
(R35, R87): what R262's order needs beyond the statements about each fault. -/

namespace Sys2Proof

/-- An accepted word agrees with its row's pattern in every field the row compares (R80, R82). -/
theorem fields_of_row_accepts {r : Row} {w : Word} (h : r.accepts w = true) :
    opField w &&& opField r.mask = opField r.pattern ∧ selField w &&& selField r.mask = selField r.pattern ∧
      b2Field w &&& b2Field r.mask = b2Field r.pattern ∧ b1Field w &&& b1Field r.mask = b1Field r.pattern ∧
      b0Field w &&& b0Field r.mask = b0Field r.pattern := by
  rw [← (row_accepts_iff r w).1 h]
  simp

/-- A word that a row of the table accepts has zeros in the fields its command does not use, and decodes (R82, R84). -/
theorem decode_of_row_accepts {r : Row} {w : Word} (hr : r ∈ opcodeRows) (h : r.accepts w = true) :
    ∃ i, decode w = .ok i := by
  have whole4 : ∀ v : BitVec 4, v &&& 15#4 = v := fun _ => BitVec.and_allOnes
  have whole8 : ∀ v : Byte, v &&& 255#8 = v := fun _ => BitVec.and_allOnes
  have hfields := fields_of_row_accepts h
  simp only [opcodeRows, List.cons_append, List.nil_append, List.mem_cons, List.not_mem_nil, or_false] at hr
  rcases hr with rfl | rfl | rfl | rfl | rfl | rfl | rfl | rfl | rfl | rfl | rfl | rfl | rfl | rfl | rfl | rfl <;>
    simp [opField, selField, b2Field, b1Field, b0Field, whole4, whole8] at hfields <;>
    simp [decode, opField, selField, b2Field, b1Field, b0Field, hfields]

end Sys2Proof

namespace Sys2Proof.Machine

open Sys2Proof.Terms

variable {i : Instr} {s : State}

/-- The commands that need a configuration are those of opcodes 11 to 13 (R35, R82). -/
theorem needsConfig_iff (i : Instr) : needsConfig i = true ↔ 11 ≤ i.opcode.toNat ∧ i.opcode.toNat ≤ 13 := by
  cases i <;> simp [needsConfig, Instr.opcode]

theorem admission_eq_configNotLoaded_iff (i : Instr) (s : State) :
    admission i s = some .configNotLoaded ↔ isReserved i.opcode = false ∧ mayIssue i.opcode s.issuer = true ∧
      operandsInRange i = true ∧ needsConfig i = true ∧ s.cfgLoaded = false := by
  unfold admission
  cases isReserved i.opcode <;> cases mayIssue i.opcode s.issuer <;> cases operandsInRange i <;>
    cases needsConfig i <;> cases s.cfgLoaded <;> simp

/-- For a permitted agent and operands in range, `CONFIG_NOT_LOADED` is exactly a command that needs a configuration while
none is loaded (R35, R87). -/
theorem admission_eq_configNotLoaded_iff_of_wellFormed (own : mayIssue i.opcode s.issuer = true)
    (good : i.wellFormed = true) :
    admission i s = some .configNotLoaded ↔
      11 ≤ i.opcode.toNat ∧ i.opcode.toNat ≤ 13 ∧ s.cfgLoaded = false := by
  have hr := isReserved_eq_false_of_mayIssue own
  simp [admission_eq_configNotLoaded_iff, hr, own, operandsInRange_eq_wellFormed i hr, good, needsConfig_iff, and_assoc]

/-- For a permitted agent and operands in range, a command with the configuration it needs passes every check (R87). -/
theorem admission_eq_none_iff_of_wellFormed (own : mayIssue i.opcode s.issuer = true) (good : i.wellFormed = true) :
    admission i s = none ↔ ¬ (11 ≤ i.opcode.toNat ∧ i.opcode.toNat ≤ 13 ∧ s.cfgLoaded = false) := by
  have hr := isReserved_eq_false_of_mayIssue own
  simp [admission_eq_none_iff, hr, own, operandsInRange_eq_wellFormed i hr, good, needsConfig_iff]

/-- A command that passes the checks in a running block leaves the fault register empty. -/
theorem exec_fault_of_admitted {t : State} (admitted : admission i s = none) (running : s.fault = none)
    (h : exec i s = .next t) : t.fault = none := by
  rw [exec_of_admitted admitted] at h
  rw [effectOf_fault h, running]

/-- The opcodes above 13 are the two reserved ones (R83). -/
theorem reserved_opcode_cases : ∀ op : BitVec 4, 14 ≤ op.toNat → op = 0xE ∨ op = 0xF := by decide

/-- Who may issue a word may issue the command it decodes to (R86). -/
theorem mayIssue_of_decode {a : Agent} {w : Word} (hd : decode w = .ok i) (own : permitted a (opField w).toNat) :
    mayIssue i.opcode a = true := by
  rw [opcode_of_decode hd]
  exact (mayIssue_iff_permitted _ _).2 own

/-- A word with no unused bit set, from an agent that may issue it, with no operand out of range, decodes to a well-formed
command that this agent may issue. -/
theorem wellFormed_decode_of_no_cause {a : Agent} {w : Word} (own : permitted a (opField w).toNat)
    (row : ¬ ∀ r ∈ opcodeRows, r.accepts w = false) (inRange : ¬ ∃ i, decode w = .ok i ∧ i.wellFormed = false) :
    ∃ i, decode w = .ok i ∧ mayIssue i.opcode a = true ∧ i.wellFormed = true := by
  obtain ⟨r, hr, haccepts⟩ : ∃ r ∈ opcodeRows, r.accepts w = true := by simpa using row
  obtain ⟨i, hd⟩ := decode_of_row_accepts hr haccepts
  exact ⟨i, hd, mayIssue_of_decode hd own, by simpa using fun bad => inRange ⟨i, hd, bad⟩⟩

/-- Settles O14: a fault is its own statement's, read past the causes before it, and a word with none of the first four
decodes to a command whose only check left is the configuration. -/
theorem theFirstFaultOfTheOrderIsTaken : Obligations.TheFirstFaultOfTheOrderIsTaken := by
  intro s a w rest running entry free reserved foreign unusedBit outOfRange notLoaded takes
  have hstep := step_of_issue running entry free
  refine ⟨?illegalOpcode, ?wrongAgent, ?reservedField, ?operandRange, ?configNotLoaded, ?none⟩
  case illegalOpcode =>
    intro hres
    exact reservedOpcodeRaisesIllegalOpcode s a w rest running entry free (reserved_opcode_cases _ hres)
  case wrongAgent =>
    intro hres
    exact (foreignAgentRaisesWrongAgent s a w rest running entry free (by omega)).1
  case reservedField =>
    intro _ own
    exact nonzeroUnusedFieldRaisesReservedField s a w rest running entry free (not_not.1 own)
  case operandRange =>
    rintro _ own _ ⟨i, hd, bad⟩
    have hmay := mayIssue_of_decode hd (not_not.1 own)
    exact hstep.trans (issueWord_of_refused hd ((admission_eq_operandRange_iff_of_mayIssue hmay).2 bad))
  case configNotLoaded =>
    intro _ own row inRange unloaded
    obtain ⟨i, hd, hmay, good⟩ := wellFormed_decode_of_no_cause (not_not.1 own) row inRange
    refine hstep.trans (issueWord_of_refused hd ((admission_eq_configNotLoaded_iff_of_wellFormed hmay good).2 ?_))
    rw [opcode_of_decode hd]
    exact unloaded
  case none =>
    intro _ own row inRange loaded
    obtain ⟨i, hd, hmay, good⟩ := wellFormed_decode_of_no_cause (not_not.1 own) row inRange
    have hexec : step s = exec i { s with inputs := rest, issuer := a } := hstep.trans (issueWord_of_decoded _ hd)
    have admitted : admission i { s with inputs := rest, issuer := a } = none := by
      rw [admission_eq_none_iff_of_wellFormed hmay good, opcode_of_decode hd]
      exact loaded
    exact ⟨i, hd, encode_of_decode hd, hexec, fun t ht => exec_fault_of_admitted admitted running (hexec.symm.trans ht)⟩

end Sys2Proof.Machine
end

section
/-! SUPPORT. The command word in both directions (R80, R82, R87, R88) and what the rows of the mask table have in common
(R82, R84). -/

namespace Sys2Proof

open Sys2Proof.Terms

/-! ### The word of a command (R80, R88) -/

/-- Every command's word decodes to the command: its opcode selects the arm, and the fields the arm demands to be zero are. -/
theorem decode_encode (i : Instr) : decode (encode i) = .ok i := by
  cases i <;> simp [encode, decode]

/-- A field of `n` bits put in its place `k` of a word loses no bit. -/
theorem toNat_placed {n : Nat} (x : BitVec n) {k : Nat} (h : n + k ≤ 32) :
    (x.setWidth 32 <<< k).toNat = x.toNat <<< k := by
  have hx : x.toNat < 2 ^ 32 := lt_of_lt_of_le x.isLt (Nat.pow_le_pow_right (by decide) (by omega))
  have hplaced : x.toNat <<< k < 2 ^ 32 := by
    calc x.toNat <<< k = x.toNat * 2 ^ k := Nat.shiftLeft_eq ..
      _ < 2 ^ n * 2 ^ k := Nat.mul_lt_mul_of_pos_right x.isLt (by positivity)
      _ = 2 ^ (n + k) := (Nat.pow_add ..).symm
      _ ≤ 2 ^ 32 := Nat.pow_le_pow_right (by decide) h
  rw [BitVec.toNat_shiftLeft, BitVec.toNat_setWidth, Nat.mod_eq_of_lt hx, Nat.mod_eq_of_lt hplaced]

theorem packWord_toNat (op sel : BitVec 4) (b2 b1 b0 : Byte) :
    (packWord op sel b2 b1 b0).toNat =
      op.toNat <<< 28 ||| sel.toNat <<< 24 ||| b2.toNat <<< 16 ||| b1.toNat <<< 8 ||| b0.toNat := by
  simp only [packWord, BitVec.toNat_append, Nat.shiftLeft_or_distrib, ← Nat.shiftLeft_add]

theorem spelled_toNat (op sel : BitVec 4) (b2 b1 b0 : Byte) :
    (spelled op sel b2 b1 b0).toNat =
      op.toNat <<< 28 ||| sel.toNat <<< 24 ||| b2.toNat <<< 16 ||| b1.toNat <<< 8 ||| b0.toNat := by
  have lowest : (b0.setWidth 32).toNat = b0.toNat := BitVec.toNat_setWidth_of_le (by decide)
  simp [spelled, BitVec.toNat_or, -BitVec.toNat_shiftLeft, toNat_placed, lowest]

/-- Laying the fields side by side is shifting each to its place and or-ing them (R88). -/
theorem packWord_eq_spelled (op sel : BitVec 4) (b2 b1 b0 : Byte) : packWord op sel b2 b1 b0 = spelled op sel b2 b1 b0 :=
  BitVec.eq_of_toNat_eq ((packWord_toNat ..).trans (spelled_toNat ..).symm)

/-! ### The mask table (R82) -/

/-- Every row compares the whole of `OP`, so a word it accepts has the row's opcode (R82). -/
theorem opField_of_row_accepts {r : Row} {w : Word} (hr : r ∈ opcodeRows) (h : r.accepts w = true) :
    opField w = opField r.pattern := by
  have wholeOp : ∀ r ∈ opcodeRows, opField r.mask = 15#4 := by decide
  rw [← (fields_of_row_accepts h).1, wholeOp r hr]
  exact BitVec.and_allOnes.symm

/-- The rows have sixteen different opcodes (R82). -/
theorem opcodeRows_pairwise_opField_ne : opcodeRows.Pairwise fun r q => opField r.pattern ≠ opField q.pattern := by decide

/-! ### The statements about the encoding -/

/-- Settles O1. -/
theorem decodeOfEncodeIsTheCommand : Obligations.DecodeOfEncodeIsTheCommand := decode_encode

/-- Settles O2. -/
theorem encodeOfDecodeIsTheWord : Obligations.EncodeOfDecodeIsTheWord := fun _ _ => encode_of_decode

/-- Settles O3: a word some row accepts decodes, and a word no row accepts is no command's. -/
theorem mustBeZeroRejectionIsNoRowMatching : Obligations.MustBeZeroRejectionIsNoRowMatching := by
  intro w
  constructor
  · intro rejected r hr
    by_contra haccepts
    obtain ⟨i, hd⟩ := decode_of_row_accepts hr (by simpa using haccepts)
    cases rejected.symm.trans hd
  · exact decode_of_no_row

/-- Settles O4: a word that two rows accept would have two opcodes. -/
theorem noWordMatchesTwoRows : Obligations.NoWordMatchesTwoRows := by
  refine opcodeRows_pairwise_opField_ne.imp_of_mem fun hr hq hne w => ?_
  rintro ⟨hrow, hrow'⟩
  exact hne ((opField_of_row_accepts hr hrow).symm.trans (opField_of_row_accepts hq hrow'))

/-- Settles O5. -/
theorem decodeReadsTheSpecsWords : Obligations.DecodeReadsTheSpecsWords := by
  unfold Obligations.DecodeReadsTheSpecsWords
  decide

/-- Settles O6: each command's word is laid out by `packWord`. -/
theorem commandWordIsTheShiftedOrOfItsFields : Obligations.CommandWordIsTheShiftedOrOfItsFields := by
  simp only [Obligations.CommandWordIsTheShiftedOrOfItsFields, ← packWord_eq_spelled, encode, implies_true, and_self]

/-- Settles O7. -/
theorem assemblerSpellsTheSpecsExamples : Obligations.AssemblerSpellsTheSpecsExamples := by
  refine ⟨?_, ?_, ?_, ?_, rfl, fun _ _ _ => rfl, fun _ => rfl, rfl⟩ <;> decide

end Sys2Proof
end

section
/-! SUPPORT. From a state that meets the invariant every operation, sub-step, command and step answers a next state, which
meets it too (R8, R30, R32, R33, R36, R111). -/

namespace Sys2Proof.Machine

variable {s t : State}

/-! ### What the invariant says of the EEPROM and of pending writes -/

/-- R8: the EEPROM has the 24 bytes from `P_EE_BASE` on. -/
theorem slots_fit_of_wf {p : Config.Params} (h : p.wf = true) : p.eeBase + 24 ≤ p.eeSize := by
  simp only [Config.Params.wf, Bool.and_eq_true, decide_eq_true_eq] at h
  exact h.2

theorem posMap_nodup_of_wf {p : Config.Params} (h : p.wf = true) : p.posMap.toList.Nodup := by
  simp only [Config.Params.wf, Bool.and_eq_true, decide_eq_true_eq] at h
  exact h.1.1

/-- Every cell lies in the 24 bytes from `P_EE_BASE` on (R103). -/
abbrev InSlots (p : Config.Params) (cells : List Host.Cell) : Prop :=
  ∀ c ∈ cells, p.eeBase ≤ c.1 ∧ c.1 < p.eeBase + 24

theorem commit_wf_iff (p : Config.Params) (cells : List Host.Cell) :
    Progress.wf p (.commit cells) = true ↔ cells ≠ [] ∧ InSlots p cells := by
  simp [Progress.wf]

theorem loadRewrite_wf_iff (p : Config.Params) (g : Fin 6) (cells : List Host.Cell) :
    Progress.wf p (.loadRewrite g cells) = true ↔ cells ≠ [] ∧ InSlots p cells := by
  simp [Progress.wf]

theorem afterGroup_wf (p : Config.Params) (g : Fin 6) : Progress.wf p (afterGroup g) = true := by
  unfold afterGroup
  split <;> rfl

/-! ### The invariant through each update of the state -/

namespace State.Inv

theorem slots_fit (h : s.Inv) : s.params.eeBase + 24 ≤ s.params.eeSize := slots_fit_of_wf h.params

theorem setInputs (h : s.Inv) (es : List Event) : (s.setInputs es).Inv := { h with }

theorem setIssuer (h : s.Inv) (a : Agent) : (s.setIssuer a).Inv := { h with }

theorem takeFault (h : s.Inv) (code : FaultCode) (w : Word) : (s.takeFault code w).Inv := { h with }

theorem writeCell (h : s.Inv) (c : Fin 12) (v : Byte) : (s.writeCell c v).Inv := { h with }

theorem setDimLevel (h : s.Inv) (l : Fin 10) : (s.setDimLevel l).Inv := { h with }

theorem loadDebounce (h : s.Inv) (v : Byte) : (s.loadDebounce v).Inv := { h with }

theorem putField (h : s.Inv) (f : Fin 10) (v : Byte) : (s.putField f v).Inv := { h with }

theorem storeGroup (h : s.Inv) (g : Fin 6) (vals : List Byte) : (storeGroup g vals s).Inv := { h with }

theorem markLoaded (h : s.Inv) : s.markLoaded.Inv := { h with }

theorem putResult (h : s.Inv) (v : Byte) : (s.putResult v).Inv := by
  unfold State.putResult
  cases s.issuer <;> exact { h with }

/-- Masking keeps the latch's condition, and so does unmasking once no request is latched (R29). -/
theorem setMasked (h : s.Inv) {b : Bool} (hb : s.muxPending = true → b = true) : (s.setMasked b).Inv :=
  { h with latch := hb }

/-- A request may be latched under the mask alone (R29). -/
theorem setPending (h : s.Inv) {b : Bool} (hb : b = true → s.muxMasked = true) : (s.setPending b).Inv :=
  { h with latch := hb }

theorem setBusy (h : s.Inv) {p : Option Progress} (hp : ∀ q, p = some q → Progress.wf s.params q = true) :
    (s.setBusy p).Inv :=
  { h with pending := hp }

theorem putByte (h : s.Inv) {a : Nat} (ha : a < s.params.eeSize) (v : Byte) : (s.putByte a v).Inv :=
  { h with canonical := wf_write a v h.canonical, within := within_write a v h.within ha }

theorem tearByte (h : s.Inv) {a : Nat} (ha : a < s.params.eeSize) : (s.tearByte a).Inv :=
  { h with canonical := wf_write a _ h.canonical, within := within_write a _ h.within ha }

theorem noteAnimation (h : s.Inv) {r m : Byte} (i : BitVec 4) (hr : r = s.params.lfsrSeed ∨ r.toNat < 60)
    (hm : m.toNat < 60) : (s.noteAnimation r i m).Inv :=
  { h with generator := hr, memo := rfl, memoMinute := fun _ he => Option.some.inj he ▸ hm }

theorem afterReset (h : s.Inv) : s.afterReset.Inv where
  params := h.params
  canonical := h.canonical
  within := h.within
  oneSelect := (by decide : selectCount State.reset ≤ 1)
  blankIsDark _ := rfl
  latch _ := rfl
  generator := .inl rfl
  memo := rfl
  memoMinute _ he := by cases he
  pending _ he := by cases he

end State.Inv

/-! ### `MuxStep` selects one line when it drives, none when it does not (R220, R222) -/

/-- The select line of each phase, alone. -/
theorem popcount_selectOfPhase : ∀ p : Fin 12,
    popcount (if p.val < 4 then onehot 4 p.val else 0) + popcount (if 4 ≤ p.val then onehot 8 (p.val - 4) else 0) = 1 := by
  decide

theorem selectCount_muxStep (s : State) : selectCount (muxStep s) = if drives s then 1 else 0 := by
  unfold selectCount
  rw [muxStep_outDsel, muxStep_outLsel]
  cases drives s with
  | true => simpa using popcount_selectOfPhase s.phase
  | false => simp [popcount]

theorem State.Inv.muxStep (h : s.Inv) : (muxStep s).Inv where
  params := by simpa using h.params
  canonical := by simpa using h.canonical
  within := by simpa using h.within
  oneSelect := by rw [selectCount_muxStep]; split <;> decide
  blankIsDark hblank := by
    have idle : drives s = false := by simpa [selectCount_muxStep] using hblank
    simp [idle]
  latch := by simpa using h.latch
  generator := by simpa using h.generator
  memo := by simpa using h.memo
  memoMinute := by simpa using h.memoMinute
  pending := by simpa using h.pending

/-! ### Sub-steps -/

theorem validateStep_of_inv (h : s.Inv) (g : Fin 6) : ∃ t, validateStep g s = .next t ∧ t.Inv := by
  obtain ⟨-, -, hv⟩ | ⟨-, -, hv⟩ | ⟨hout, -⟩ := validateStep_cases g s
  · refine ⟨_, hv, (h.storeGroup g _).setBusy ?_⟩
    rintro _ ⟨⟩
    exact afterGroup_wf ..
  · refine ⟨_, hv, (h.storeGroup g _).setBusy ?_⟩
    rintro _ ⟨⟩
    exact (loadRewrite_wf_iff ..).2 ⟨slotImage_ne_nil _ _ _, fun c hc => slotImage_inside (by simp) hc⟩
  · have := checksumAddr_lt s.params g
    have := h.slots_fit
    omega

theorem rewriteStep_of_inv (h : s.Inv) (g : Fin 6) {cells : List Host.Cell} (hcells : InSlots s.params cells) :
    ∃ t, rewriteStep g cells s = .next t ∧ t.Inv := by
  match cells with
  | [] =>
    refine ⟨_, rfl, h.setBusy ?_⟩
    rintro _ ⟨⟩
    exact afterGroup_wf ..
  | (a, v) :: more =>
    obtain ⟨⟨-, ha⟩, hmore⟩ := List.forall_mem_cons.1 hcells
    obtain ⟨hin, hw⟩ | ⟨hout, -⟩ := rewriteStep_cases g a v more s
    · refine ⟨_, hw, (h.putByte hin v).setBusy ?_⟩
      rintro _ ⟨⟩
      split
      · exact afterGroup_wf ..
      · next hne => exact (loadRewrite_wf_iff ..).2 ⟨by simpa using hne, hmore⟩
    · have := h.slots_fit
      omega

theorem commitStep_of_inv (h : s.Inv) {cells : List Host.Cell} (hcells : InSlots s.params cells) :
    ∃ t, commitStep cells s = .next t ∧ t.Inv := by
  match cells with
  | [] => exact ⟨_, rfl, h.setBusy (by simp)⟩
  | (a, v) :: more =>
    obtain ⟨⟨-, ha⟩, hmore⟩ := List.forall_mem_cons.1 hcells
    obtain ⟨hin, hw⟩ | ⟨hout, -⟩ := commitStep_cases a v more s
    · refine ⟨_, hw, (h.putByte hin v).setBusy fun q hq => ?_⟩
      split at hq
      · cases hq
      · next hne =>
        cases hq
        exact (commit_wf_iff ..).2 ⟨by simpa using hne, hmore⟩
    · have := h.slots_fit
      omega

theorem subStep_of_inv (h : s.Inv) {p : Progress} (hp : Progress.wf s.params p = true) :
    ∃ t, subStep p s = .next t ∧ t.Inv := by
  cases p with
  | anim j lanes =>
    refine ⟨_, rfl, (h.writeCell _ _).setBusy fun q hq => ?_⟩
    split at hq <;> cases hq
    rfl
  | loadValidate g => exact validateStep_of_inv h g
  | loadRewrite g cells => exact rewriteStep_of_inv h g ((loadRewrite_wf_iff ..).1 hp).2
  | loadFinish => exact ⟨_, rfl, h.markLoaded.setBusy (by simp)⟩
  | commit cells => exact commitStep_of_inv h ((commit_wf_iff ..).1 hp).2

/-! ### Commands -/

/-- The compute step leaves the generator at its seed or below 60: it keeps it or steps it once (R32, R163). -/
theorem State.Inv.animCompute (h : s.Inv) (i : BitVec 4) (hour sec : Byte) {m : Byte} (hm : m.toNat < 60) :
    (animCompute i hour m sec s).Inv := by
  obtain ⟨-, ha⟩ | ⟨-, ha⟩ := animCompute_cases s i hour m sec <;> rw [ha]
  · exact h.noteAnimation i h.generator hm
  · refine State.Inv.setBusy (h.noteAnimation i ?_ hm) (by rintro _ ⟨⟩; rfl)
    obtain hkeep | hstep := animate_generator s.params i hour.toNat m.toNat sec.toNat s.tickCnt s.lfsr
    · rw [hkeep]; exact h.generator
    · rw [hstep]; exact .inr (lfsrStep_lt ..)

theorem effectOf_of_inv (h : s.Inv) {i : Instr} (admitted : admission i s = none) :
    ∃ t, effectOf i s = .next t ∧ t.Inv := by
  cases i with
  | tick =>
    refine ⟨_, rfl, ?_⟩
    split
    · next masked => exact h.setPending fun _ => masked
    · exact h.muxStep
  | muxUnmask =>
    refine ⟨_, rfl, ?_⟩
    split
    · have quiet : (s.setPending false).Inv := h.setPending (by simp)
      exact (quiet.setMasked (b := false) (by simp)).muxStep
    · next idle => exact h.setMasked fun latched => absurd latched idle
  | animStep k hour m sec =>
    obtain ⟨-, -, hm, -⟩ := (admission_animStep s k hour m sec).1 admitted
    exact ⟨_, rfl, h.animCompute k hour sec hm⟩
  | cfgLoad => exact validateStep_of_inv h 0
  | cfgCommit g => exact commitStep_of_inv h fun c hc => slotImage_inside (by simp) hc
  | bufWr c v => exact ⟨_, rfl, h.writeCell ..⟩
  | dimSet l => exact ⟨_, rfl, h.setDimLevel _⟩
  | muxMask => exact ⟨_, rfl, h.setMasked fun _ => rfl⟩
  | debLoad v => exact ⟨_, rfl, h.loadDebounce v⟩
  | cfgWr f v => exact ⟨_, rfl, h.putField ..⟩
  | bufRd c => exact ⟨_, rfl, h.putResult _⟩
  | tickRd => exact ⟨_, rfl, h.putResult _⟩
  | debRd => exact ⟨_, rfl, h.putResult _⟩
  | cfgRd f => exact ⟨_, rfl, h.putResult _⟩
  | reservedE r => exact ⟨_, rfl, h⟩
  | reservedF r => exact ⟨_, rfl, h⟩

theorem exec_of_inv (h : s.Inv) (i : Instr) : ∃ t, exec i s = .next t ∧ t.Inv := by
  obtain ⟨admitted, he⟩ | ⟨code, -, he⟩ := exec_cases i s <;> rw [he]
  · exact effectOf_of_inv h admitted
  · exact ⟨_, rfl, h.takeFault ..⟩

theorem issueWord_of_inv (h : s.Inv) (a : Agent) (w : Word) : ∃ t, issueWord a w s = .next t ∧ t.Inv := by
  cases hd : decode w with
  | reservedField op => exact ⟨_, issueWord_of_rejected s hd, (h.setIssuer a).takeFault ..⟩
  | ok i =>
    rw [issueWord_of_decoded s hd]
    exact exec_of_inv (h.setIssuer a) i

/-! ### Steps -/

theorem resetDuringStep_inv (h : s.Inv) (w : Word) : (resetDuringStep w s).Inv := by
  obtain ⟨a, -, -, ha, hr⟩ | ⟨-, hr⟩ := resetDuringStep_cases w s <;> rw [hr]
  · exact (h.tearByte ha).afterReset
  · exact h.afterReset

/-- From a state that meets the invariant a step answers a next state, and that state meets it. -/
theorem step_of_inv (h : s.Inv) : ∃ t, step s = .next t ∧ t.Inv := by
  have hcase := step_cases s
  generalize step s = o at hcase
  cases hcase with
  | idle hin => exact ⟨_, rfl, h⟩
  | reset rest hin => exact ⟨_, rfl, (h.setInputs rest).afterReset⟩
  | resetDuring w rest hin => exact ⟨_, rfl, resetDuringStep_inv (h.setInputs rest) w⟩
  | passed e rest hin why => exact ⟨_, rfl, h.setInputs rest⟩
  | issued a w rest hin running free => exact issueWord_of_inv (h.setInputs rest) a w
  | continued p rest hin running hp => exact subStep_of_inv (h.setInputs rest) (h.pending p hp)
  | waiting w rest p hin running hp => exact subStep_of_inv h (h.pending p hp)

/-! ### The statements about the invariant -/

/-- Settles O53: the state `step_of_inv` speaks of is the one the step answers. -/
theorem everyStepKeepsTheInvariant : Obligations.EveryStepKeepsTheInvariant := by
  intro s t h hstep
  obtain ⟨t', hstep', ht'⟩ := step_of_inv h
  cases hstep.symm.trans hstep'
  exact ht'

/-- Settles O55. -/
theorem noStepStopsTheMachine : Obligations.NoStepStopsTheMachine := by
  intro s h
  obtain ⟨t, hstep, -⟩ := step_of_inv h
  exact ⟨t, hstep⟩

/-- Settles O54. -/
theorem resetMeetsTheInvariant : Obligations.ResetMeetsTheInvariant where
  params := by decide +kernel
  canonical := rfl
  within := rfl
  oneSelect := by decide
  blankIsDark _ := rfl
  latch _ := rfl
  generator := .inl rfl
  memo := rfl
  memoMinute _ he := by cases he
  pending _ he := by cases he

end Sys2Proof.Machine
end

section
/-! SUPPORT. Single commands: what each does from an admitted state, whole (R84 to R87 for who is admitted; R108, R109, R141,
R142, R221, R227 to R232 for the effects). -/

namespace Sys2Proof.Machine

open Sys2Proof.Terms

variable (s : State)

/-! ### `MuxStep` as the statements write it out (R222) -/

theorem phase_succ : ∀ p : Fin 12, p + 1 = if h : p.val = 11 then 0 else ⟨p.val + 1, by omega⟩ := by decide

theorem dimCnt_succ : ∀ d : Fin 10, d + 1 = if h : d.val = 9 then 0 else ⟨d.val + 1, by omega⟩ := by decide

theorem drives_iff : drives s = true ↔ s.dimCnt.val ≥ s.dimLevel.val :=
  decide_eq_true_iff

theorem muxStep_eq_muxStepped : muxStep s = muxStepped s := by
  have hphase : s.phase = 11 ↔ s.phase.val = 11 := Fin.ext_iff
  have htick : s.tickCnt + 1 = BitVec.ofNat 8 (s.tickCnt.toNat + 1) := BitVec.eq_of_toNat_eq (by simp [BitVec.toNat_add])
  have hdeb : (if s.debCnt = 0 then 0 else s.debCnt - 1) = BitVec.ofNat 8 (s.debCnt.toNat - 1) := by
    rw [← muxStep_debCnt, ← muxStep_debCnt_toNat, BitVec.ofNat_toNat, BitVec.setWidth_eq]
  rw [muxStep_eq, muxStepped]
  simp only [drives_iff, hphase, phase_succ, dimCnt_succ, htick, hdeb]
  rfl

/-! ### Commands of MAIN alone -/

/-- Settles O35. -/
theorem bufWrWritesItsCell : Obligations.BufWrWritesItsCell := by
  intro s c v hc main
  rw [exec_of_admitted ((admission_bufWr s c v).2 ⟨main, hc⟩), effectOf, cellOf_eq hc]
  rfl

/-- Settles O36. -/
theorem bufRdReadsItsCell : Obligations.BufRdReadsItsCell := by
  intro s c hc main
  rw [exec_of_admitted ((admission_bufRd s c).2 ⟨main, hc⟩), effectOf, State.putResult, main]
  simp only [cellOf_eq hc]
  rfl

/-- Settles O23. -/
theorem dimSetWritesTheLevel : Obligations.DimSetWritesTheLevel := by
  intro s l hl main
  rw [exec_of_admitted ((admission_dimSet s l).2 ⟨main, hl⟩), effectOf, levelOf_eq hl]
  rfl

/-- Settles O24. -/
theorem muxMaskSetsTheMask : Obligations.MuxMaskSetsTheMask := by
  intro s main
  exact exec_of_admitted ((admission_muxMask s).2 main)

/-- Settles O25: the effect's branch is on the latch. -/
theorem muxUnmaskRunsTheLatchedStep : Obligations.MuxUnmaskRunsTheLatchedStep := by
  intro s main
  rw [exec_of_admitted ((admission_muxUnmask s).2 main), effectOf]
  constructor
  · intro idle
    rw [if_neg (by simp [idle])]
    rfl
  · intro latched
    rw [if_pos latched, muxStep_eq_muxStepped]
    rfl

/-- Settles O44. -/
theorem cfgRdReadsTheShadow : Obligations.CfgRdReadsTheShadow := by
  intro s f hf main loaded
  rw [exec_of_admitted ((admission_cfgRd s f).2 ⟨main, hf, loaded⟩), effectOf, State.putResult, main]
  simp only [fieldOf_eq hf]
  rfl

/-- Settles O45. -/
theorem cfgWrWritesTheShadowAlone : Obligations.CfgWrWritesTheShadowAlone := by
  intro s f v hf main loaded legal
  rw [exec_of_admitted ((admission_cfgWr s f v).2 ⟨main, legal, loaded⟩), effectOf, fieldOf_eq hf]
  rfl

/-! ### Commands of TIMER, and of MAIN and EDGE -/

/-- Settles O21. -/
theorem unmaskedTickRunsOneMuxStep : Obligations.UnmaskedTickRunsOneMuxStep := by
  intro s timer unmasked
  rw [exec_of_admitted ((admission_tick s).2 timer), effectOf, if_neg (by simp [unmasked]), muxStep_eq_muxStepped]

/-- Settles O22. -/
theorem maskedTickOnlyLatchesARequest : Obligations.MaskedTickOnlyLatchesARequest := by
  intro s timer masked
  rw [exec_of_admitted ((admission_tick s).2 timer), effectOf, if_pos masked]
  rfl

/-- Settles O26. -/
theorem counterReadsGoToTheIssuersRegister : Obligations.CounterReadsGoToTheIssuersRegister := by
  intro s
  constructor
  · intro main
    rw [exec_of_admitted ((admission_tickRd s).2 (.inl main)), exec_of_admitted ((admission_debRd s).2 (.inl main))]
    simp only [effectOf, State.putResult, main, and_self]
  · intro edge
    rw [exec_of_admitted ((admission_tickRd s).2 (.inr edge)), exec_of_admitted ((admission_debRd s).2 (.inr edge))]
    simp only [effectOf, State.putResult, edge, and_self]

/-- Settles O28. -/
theorem debLoadLoadsTheCounter : Obligations.DebLoadLoadsTheCounter := by
  intro s v agent
  exact exec_of_admitted ((admission_debLoad s v).2 agent)

/-! ### Commands that fault -/

/-- Settles O15. -/
theorem reservedCommandsTakeIllegalOpcode : Obligations.ReservedCommandsTakeIllegalOpcode := by
  intro r s
  exact ⟨exec_of_refused (admission_reservedE s r), exec_of_refused (admission_reservedF s r)⟩

/-- A config command of MAIN's with legal operands takes `CONFIG_NOT_LOADED` while none is loaded (R35, R87). -/
theorem exec_of_unloaded {s : State} {i : Instr} (main : s.issuer = .main) (unloaded : s.cfgLoaded = false)
    (config : 11 ≤ i.opcode.toNat ∧ i.opcode.toNat ≤ 13) (good : i.wellFormed = true) :
    exec i s = .next { s with fault := some ⟨.configNotLoaded, .main, encode i⟩ } := by
  have own : mayIssue i.opcode s.issuer = true := by
    rw [main, mayIssue_iff_permitted]
    exact ⟨by omega, config.2⟩
  rw [exec_of_refused ((admission_eq_configNotLoaded_iff_of_wellFormed own good).2 ⟨config.1, config.2, unloaded⟩),
    State.takeFault, main]

/-- Settles O13. -/
theorem configCommandsBeforeLoadRaiseConfigNotLoaded : Obligations.ConfigCommandsBeforeLoadRaiseConfigNotLoaded := by
  intro s main unloaded
  refine ⟨fun f hf => ?_, fun f v legal => ?_, fun g hg => ?_⟩
  · exact exec_of_unloaded main unloaded (by simp [Instr.opcode]) (by simpa [Instr.wellFormed, Nat.lt_succ_iff] using hf)
  · exact exec_of_unloaded main unloaded (by simp [Instr.opcode]) legal
  · exact exec_of_unloaded main unloaded (by simp [Instr.opcode]) (by simpa [Instr.wellFormed, Nat.lt_succ_iff] using hg)

/-- Settles O16: an admitted command's effect leaves the fault register alone. -/
theorem aFaultingCommandWritesOnlyTheFaultRegister : Obligations.AFaultingCommandWritesOnlyTheFaultRegister := by
  intro i s t hexec faulted
  obtain ⟨-, he⟩ | ⟨code, -, he⟩ := exec_cases i s <;> rw [he] at hexec
  · exact absurd (effectOf_fault hexec) faulted
  · cases hexec
    exact ⟨code, rfl⟩

/-! ### The step that issues a word -/

/-- Settles O8. -/
theorem stepRunsTheDecodedCommand : Obligations.StepRunsTheDecodedCommand := by
  intro s a w rest i running entry free hd
  rw [step_of_issue running entry free]
  exact issueWord_of_decoded _ hd

end Sys2Proof.Machine
end

section
/-! SUPPORT. Frames: what a sub-step, a command and a step leave as they are (R31, R64, R267), and which registers a command of
TIMER or EDGE can reach (R86, R267). -/

namespace Sys2Proof.Machine

open Sys2Proof.Terms

variable {s t : State} {i : Instr}

/-! ### Sub-steps -/

theorem validateStep_frame {g : Fin 6} (h : validateStep g s = .next t) : t = { s with cfg := t.cfg, busy := t.busy } := by
  obtain ⟨-, -, hv⟩ | ⟨-, -, hv⟩ | ⟨-, hv⟩ := validateStep_cases g s <;> rw [hv] at h <;> cases h <;> rfl

theorem rewriteStep_frame {g : Fin 6} {cells : List Host.Cell} (h : rewriteStep g cells s = .next t) :
    t = { s with ee := t.ee, busy := t.busy } := by
  match cells with
  | [] => cases h; rfl
  | (a, v) :: more =>
    obtain ⟨-, hr⟩ | ⟨-, hr⟩ := rewriteStep_cases g a v more s <;> rw [hr] at h <;> cases h
    rfl

theorem commitStep_frame {cells : List Host.Cell} (h : commitStep cells s = .next t) :
    t = { s with ee := t.ee, busy := t.busy } := by
  match cells with
  | [] => cases h; rfl
  | (a, v) :: more =>
    obtain ⟨-, hc⟩ | ⟨-, hc⟩ := commitStep_cases a v more s <;> rw [hc] at h <;> cases h
    rfl

/-- A sub-step writes the buffer, the shadow, `cfg_loaded`, the EEPROM and MAIN's position at most (R64). -/
theorem subStep_frame {p : Progress} (h : subStep p s = .next t) :
    t = { s with buf := t.buf, cfg := t.cfg, cfgLoaded := t.cfgLoaded, ee := t.ee, busy := t.busy } := by
  cases p with
  | anim j lanes => cases h; rfl
  | loadValidate g => have := validateStep_frame h; rw [this]
  | loadRewrite g cells => have := rewriteStep_frame h; rw [this]
  | loadFinish => cases h; rfl
  | commit cells => have := commitStep_frame h; rw [this]

/-! ### Commands -/

theorem animCompute_frame (k : BitVec 4) (hour m sec : Byte) (s : State) :
    animCompute k hour m sec s = { s with
      lfsr := (animCompute k hour m sec s).lfsr
      lastIdx := some k
      lastMin := some m
      busy := (animCompute k hour m sec s).busy } := by
  obtain ⟨-, ha⟩ | ⟨-, ha⟩ := animCompute_cases s k hour m sec <;> rw [ha] <;> rfl

theorem effectOf_params (h : effectOf i s = .next t) : t.params = s.params := by
  cases i with
  | cfgLoad => rw [validateStep_frame h]
  | cfgCommit g => rw [commitStep_frame h]
  | animStep k hour m sec => cases h; rw [animCompute_frame]
  | tick => cases h; split <;> simp
  | muxUnmask => cases h; split <;> simp
  | _ => cases h; simp

theorem exec_params (h : exec i s = .next t) : t.params = s.params := by
  obtain ⟨-, he⟩ | ⟨code, -, he⟩ := exec_cases i s <;> rw [he] at h
  · exact effectOf_params h
  · cases h; rfl

theorem issueWord_params {a : Agent} {w : Word} (h : issueWord a w s = .next t) : t.params = s.params := by
  cases hd : decode w with
  | reservedField op => rw [issueWord_of_rejected s hd] at h; cases h; rfl
  | ok i => rw [issueWord_of_decoded s hd] at h; exact exec_params (s := s.setIssuer a) h

theorem resetDuringStep_params (w : Word) (s : State) : (resetDuringStep w s).params = s.params := by
  obtain ⟨a, -, -, -, hr⟩ | ⟨-, hr⟩ := resetDuringStep_cases w s <;> rw [hr] <;> rfl

/-- Settles O56. -/
theorem noStepChangesTheParameters : Obligations.NoStepChangesTheParameters := by
  intro s t hstep
  have hcase := step_cases s
  generalize step s = o at hstep hcase
  cases hcase with
  | idle hin => cases hstep; rfl
  | reset rest hin => cases hstep; rfl
  | resetDuring w rest hin => cases hstep; exact resetDuringStep_params ..
  | passed e rest hin why => cases hstep; rfl
  | issued a w rest hin running free => exact issueWord_params (s := s.setInputs rest) hstep
  | continued p rest hin running hp => rw [subStep_frame hstep]; rfl
  | waiting w rest p hin running hp => rw [subStep_frame hstep]

/-! ### The result registers (R31) -/

/-- A command whose effect is no result register's leaves both as they are. -/
theorem effectOf_rdata (bufRd : ∀ c, i ≠ .bufRd c) (tickRd : i ≠ .tickRd) (debRd : i ≠ .debRd)
    (cfgRd : ∀ f, i ≠ .cfgRd f) (h : effectOf i s = .next t) : t.rdataMain = s.rdataMain ∧ t.rdataEdge = s.rdataEdge := by
  cases i with
  | bufRd c => exact absurd rfl (bufRd c)
  | tickRd => exact absurd rfl tickRd
  | debRd => exact absurd rfl debRd
  | cfgRd f => exact absurd rfl (cfgRd f)
  | cfgLoad => rw [validateStep_frame h]; exact ⟨rfl, rfl⟩
  | cfgCommit g => rw [commitStep_frame h]; exact ⟨rfl, rfl⟩
  | animStep k hour m sec => cases h; rw [animCompute_frame]; exact ⟨rfl, rfl⟩
  | tick => cases h; split <;> simp
  | muxUnmask => cases h; split <;> simp
  | _ => cases h; exact ⟨rfl, rfl⟩

/-- Settles O27: a refused command writes the fault register alone; of the admitted ones the four reads write their issuer's
result register, and only two of them can be EDGE's. -/
theorem onlyReadCommandsWriteTheIssuersResultRegister : Obligations.OnlyReadCommandsWriteTheIssuersResultRegister := by
  intro i s t hexec
  obtain ⟨admitted, he⟩ | ⟨code, -, he⟩ := exec_cases i s <;> rw [he] at hexec
  · cases i with
    | bufRd c =>
      obtain ⟨main, -⟩ := (admission_bufRd s c).1 admitted
      cases hexec
      simp [main]
    | cfgRd f =>
      obtain ⟨main, -⟩ := (admission_cfgRd s f).1 admitted
      cases hexec
      simp [main]
    | tickRd => cases hexec; simp +contextual
    | debRd => cases hexec; simp +contextual
    | _ =>
      obtain ⟨hmain, hedge⟩ := effectOf_rdata (by simp) (by simp) (by simp) (by simp) hexec
      exact ⟨fun changed => absurd hmain changed, fun changed => absurd hedge changed⟩
  · cases hexec
    exact ⟨fun changed => absurd rfl changed, fun changed => absurd rfl changed⟩

/-! ### TIMER and EDGE (R86, R267) -/

/-- TIMER and EDGE issue `TICK`, the counter reads and `DEB_LOAD`, nothing else (R86). -/
theorem interrupt_command {a : Agent} (own : mayIssue i.opcode a = true) (other : a ≠ .main) :
    i = .tick ∨ i = .tickRd ∨ (∃ v, i = .debLoad v) ∨ i = .debRd := by
  cases i <;> cases a <;> simp [mayIssue, agentsOf, Instr.opcode] at own other ⊢

/-- MAIN's position and the registers that only MAIN's commands write (R267). -/
def State.mainRegs (s : State) : Option Progress × Vector Byte 12 × Vector Byte 10 × Bool × Memory × Fin 10 × Bool × Byte ×
    Option (BitVec 4) × Option Byte × Byte :=
  (s.busy, s.buf, s.cfg, s.cfgLoaded, s.ee, s.dimLevel, s.muxMasked, s.lfsr, s.lastIdx, s.lastMin, s.rdataMain)

theorem mainRegs_eq_iff :
    t.mainRegs = s.mainRegs ↔ t.busy = s.busy ∧ t.buf = s.buf ∧ t.cfg = s.cfg ∧ t.cfgLoaded = s.cfgLoaded ∧ t.ee = s.ee ∧
      t.dimLevel = s.dimLevel ∧ t.muxMasked = s.muxMasked ∧ t.lfsr = s.lfsr ∧ t.lastIdx = s.lastIdx ∧
      t.lastMin = s.lastMin ∧ t.rdataMain = s.rdataMain := by
  simp [State.mainRegs]

theorem muxStep_mainRegs (s : State) : (muxStep s).mainRegs = s.mainRegs := by
  simp [mainRegs_eq_iff]

theorem putResult_mainRegs (other : s.issuer ≠ .main) (v : Byte) : (s.putResult v).mainRegs = s.mainRegs := by
  simp [mainRegs_eq_iff, other]

theorem effectOf_mainRegs (own : mayIssue i.opcode s.issuer = true) (other : s.issuer ≠ .main)
    (h : effectOf i s = .next t) : t.mainRegs = s.mainRegs := by
  obtain rfl | rfl | ⟨v, rfl⟩ | rfl := interrupt_command own other
  · cases h
    split
    · rfl
    · exact muxStep_mainRegs s
  · cases h; exact putResult_mainRegs other _
  · cases h; rfl
  · cases h; exact putResult_mainRegs other _

theorem exec_mainRegs (other : s.issuer ≠ .main) (h : exec i s = .next t) : t.mainRegs = s.mainRegs := by
  obtain ⟨admitted, he⟩ | ⟨code, -, he⟩ := exec_cases i s <;> rw [he] at h
  · obtain ⟨-, own, -⟩ := (admission_eq_none_iff i s).1 admitted
    exact effectOf_mainRegs own other h
  · cases h
    rfl

theorem issueWord_mainRegs {a : Agent} {w : Word} (other : a ≠ .main) (h : issueWord a w s = .next t) :
    t.mainRegs = s.mainRegs := by
  cases hd : decode w with
  | reservedField op =>
    rw [issueWord_of_rejected s hd] at h
    cases h
    rfl
  | ok i =>
    rw [issueWord_of_decoded s hd] at h
    exact exec_mainRegs (s := s.setIssuer a) other h

/-- In a halted block every entry but RESET is passed over (R261). -/
theorem step_of_halted {e : Event} {rest : List Event} (halted : s.fault ≠ none) (entry : s.inputs = e :: rest)
    (noReset : s.resets = false) : step s = .next (s.setInputs rest) := by
  have isSome : s.fault.isSome = true := Option.isSome_iff_ne_none.2 halted
  cases e with
  | reset => simp [State.resets, entry] at noReset
  | resetDuring w => simp [State.resets, entry] at noReset
  | issue a w => simp [step, entry, handleEvent, isSome]
  | proceed => simp [step, entry, handleEvent, isSome]

/-- Settles O57: halted, the block passes the word over; running, the word is none of MAIN's commands. -/
theorem interruptStepsLeaveMainAlone : Obligations.InterruptStepsLeaveMainAlone := by
  intro s t a w rest entry other hstep
  refine mainRegs_eq_iff.1 ?_
  by_cases running : s.fault = none
  · rw [step_of_issue running entry fun main => absurd main other] at hstep
    exact issueWord_mainRegs (s := s.setInputs rest) other hstep
  · rw [step_of_halted running entry (by simp [State.resets, entry])] at hstep
    cases hstep
    rfl

/-! ### MAIN inside a multi-step command (R64) -/

/-- MAIN's turn in a block that is not halted is the next sub-step (R64). -/
theorem step_of_proceed {p : Progress} {rest : List Event} (running : s.fault = none) (inProgress : s.busy = some p)
    (entry : s.inputs = .proceed :: rest) : step s = subStep p (s.setInputs rest) := by
  simp [step, entry, handleEvent, running, inProgress]

/-- MAIN's word in front of its unfinished command waits for the next sub-step (R64). -/
theorem step_of_waiting {p : Progress} {w : Word} {rest : List Event} (running : s.fault = none)
    (inProgress : s.busy = some p) (entry : s.inputs = .issue .main w :: rest) : step s = subStep p s := by
  simp [step, entry, handleEvent, running, inProgress]

/-- Settles O58: both steps are the same sub-step of the same state, and a sub-step takes no entry off the list. -/
theorem mainsNextWordWaitsForItsCommand : Obligations.MainsNextWordWaitsForItsCommand := by
  intro s w rest p hinv running inProgress entry
  obtain ⟨t, hsub, -⟩ := subStep_of_inv hinv (hinv.pending p inProgress)
  refine ⟨t, (step_of_waiting running inProgress entry).trans hsub, ?_, ?_⟩
  · rw [subStep_frame hsub]
  · exact (step_of_proceed (s := { s with inputs := .proceed :: s.inputs }) running inProgress rfl).trans hsub

/-! ### The halted block (R261) -/

/-- Settles O17. -/
theorem faultedBlockStandsUntilReset : Obligations.FaultedBlockStandsUntilReset := by
  intro s r halted noReset
  cases entry : s.inputs with
  | nil =>
    have idle : step s = .next s := by simp [step, entry]
    rw [idle, List.tail_nil, ← entry]
  | cons e rest => exact step_of_halted (by simp [halted]) entry noReset

end Sys2Proof.Machine
end

section
/-! SUPPORT. RESET: the values it leaves (R40, R290, R291), and the byte it cuts, which is the one MAIN's next step writes
(R64, R292). -/

namespace Sys2Proof.Machine

open Sys2Proof.Terms

variable {s u : State}

/-! ### The reset values (R40) -/

/-- R290: whatever the registers held, RESET gives them R40's values under the launch's parameters. -/
theorem hasResetValues_afterReset (hp : u.params = s.params) : HasResetValues s u.afterReset := by
  constructor <;> simp [hp]

/-- Settles O19. -/
theorem resetStateHasTheSpecsValues : Obligations.ResetStateHasTheSpecsValues := by
  unfold Obligations.ResetStateHasTheSpecsValues
  decide

theorem step_of_reset {rest : List Event} (entry : s.inputs = .reset :: rest) :
    step s = .next (s.setInputs rest).afterReset := by
  simp [step, entry, handleEvent]

/-- Settles O18. -/
theorem resetEventRestoresTheResetValues : Obligations.ResetEventRestoresTheResetValues := by
  intro s rest entry
  exact ⟨_, step_of_reset entry, hasResetValues_afterReset rfl, rfl, rfl⟩

/-! ### The write that a RESET cuts (R292) -/

theorem nextWrite_of_busy {p : Progress} (w : Word) (a : Nat) (inProgress : s.busy = some p) :
    nextWrite w s = some a ↔ writesNext s w a := by
  match p with
  | .anim j lanes => simp [nextWrite, writesNext, inProgress]
  | .loadValidate g => simp [nextWrite, writesNext, inProgress]
  | .loadRewrite g [] => simp [nextWrite, writesNext, inProgress]
  | .loadRewrite g ((b, v) :: more) => simp [nextWrite, writesNext, inProgress]
  | .loadFinish => simp [nextWrite, writesNext, inProgress]
  | .commit [] => simp [nextWrite, writesNext, inProgress]
  | .commit ((b, v) :: more) => simp [nextWrite, writesNext, inProgress]

/-- The address the model tears is the one the statements name: MAIN's pending byte, or the first byte of the slot of the
`CFG_COMMIT` that MAIN is issuing, if it passes the checks. -/
theorem nextWrite_eq_some_iff (s : State) (w : Word) (a : Nat) : nextWrite w s = some a ↔ writesNext s w a := by
  cases free : s.busy with
  | some p => exact nextWrite_of_busy w a free
  | none =>
    constructor
    · intro h
      simp only [nextWrite, free] at h
      split at h
      · next g hd =>
        split at h
        · next admitted =>
          obtain ⟨-, hg, loaded⟩ := (admission_cfgCommit _ g).1 admitted
          cases h
          exact .inr (.inr ⟨free, loaded, g, hg, (encode_of_decode hd).symm, by simp [slotBase, hg]⟩)
        · cases h
      · cases h
    · rintro (⟨v, more, hb⟩ | ⟨g, v, more, hb⟩ | ⟨-, loaded, g, hg, rfl, rfl⟩)
      · cases free.symm.trans hb
      · cases free.symm.trans hb
      · have admitted := (admission_cfgCommit (s.setIssuer .main) g).2 ⟨rfl, hg, loaded⟩
        simp [nextWrite, free, decode_encode, admitted, slotBase, hg]

/-- The byte MAIN's next step writes lies in the slots, which the EEPROM has (R8, R103). -/
theorem writesNext_lt {w : Word} {a : Nat} (hinv : s.Inv) (hw : writesNext s w a) : a < s.params.eeSize := by
  have hfit := hinv.slots_fit
  have hslots : a < s.params.eeBase + 24 := by
    obtain ⟨v, more, hb⟩ | ⟨g, v, more, hb⟩ | ⟨-, -, g, hg, -, rfl⟩ := hw
    · exact (((commit_wf_iff ..).1 (hinv.pending _ hb)).2 _ (List.mem_cons_self ..)).2
    · exact (((loadRewrite_wf_iff ..).1 (hinv.pending _ hb)).2 _ (List.mem_cons_self ..)).2
    · omega
  omega

/-- A RESET that finds a write tears its byte and resets (R292). -/
theorem resetDuringStep_of_writesNext {w : Word} {a : Nat} (running : s.fault = none) (hw : writesNext s w a)
    (ha : a < s.params.eeSize) : resetDuringStep w s = (s.tearByte a).afterReset := by
  simp [resetDuringStep, running, (nextWrite_eq_some_iff s w a).2 hw, ha]

/-- A RESET that finds no write is a RESET at the boundary. -/
theorem resetDuringStep_of_no_write {w : Word} (noWrite : s.fault ≠ none ∨ ∀ a, ¬ writesNext s w a) :
    resetDuringStep w s = s.afterReset := by
  obtain ⟨a, running, hn, -, -⟩ | ⟨-, hr⟩ := resetDuringStep_cases w s
  · obtain halted | free := noWrite
    · exact absurd running halted
    · exact absurd ((nextWrite_eq_some_iff s w a).1 hn) (free a)
  · exact hr

theorem step_of_resetDuring {w : Word} {rest : List Event} (entry : s.inputs = .resetDuring w :: rest) :
    step s = .next (resetDuringStep w (s.setInputs rest)) := by
  simp [step, entry, handleEvent]

/-- Settles O20. -/
theorem resetDuringAWriteTearsOnlyThatByte : Obligations.ResetDuringAWriteTearsOnlyThatByte := by
  intro s w rest a hinv running entry hw
  have hreset := resetDuringStep_of_writesNext (s := s.setInputs rest) running hw (writesNext_lt (s := s) hinv hw)
  refine ⟨_, (step_of_resetDuring entry).trans (congrArg _ hreset), hasResetValues_afterReset rfl, ?_, rfl, ?_, rfl⟩
  · exact read_write_same a _ hinv.canonical
  · intro b hb
    exact read_write_other a b _ hinv.canonical hb

/-- Settles O59. -/
theorem resetDuringNoWriteIsAPlainReset : Obligations.ResetDuringNoWriteIsAPlainReset := by
  intro s w rest entry noWrite
  rw [step_of_resetDuring entry, resetDuringStep_of_no_write (s := s.setInputs rest) noWrite]
  exact (step_of_reset (s := { s with inputs := .reset :: rest }) rfl).symm

end Sys2Proof.Machine
end

section
/-! SUPPORT. Many multiplexer steps: the counters in closed form (R222, R225, R234), the duty over ten frames (R224), what a
driven frame shows (R220, R223), and the ticks that arrive under the mask (R221, R229). -/

namespace Sys2Proof.Machine

open Sys2Proof.Terms

variable (s : State)

/-! ### The counters after `n` steps -/

/-- What no `MuxStep` changes, many leave as it is. -/
theorem iterate_muxStep_keeps {α : Type} {f : State → α} (keeps : ∀ s, f (muxStep s) = f s) (n : Nat) :
    f (muxStep^[n] s) = f s := by
  induction n with
  | zero => rfl
  | succ n ih => rw [Function.iterate_succ_apply', keeps, ih]

theorem iterate_muxStep_phase (n : Nat) : (muxStep^[n] s).phase.val = (s.phase.val + n) % 12 := by
  induction n with
  | zero => exact (Nat.mod_eq_of_lt s.phase.isLt).symm
  | succ n ih =>
    rw [Function.iterate_succ_apply', muxStep_phase, Fin.val_add, ih]
    exact Nat.mod_add_mod ..

/-- The dimming counter counts the wraps of the phase (R234). -/
theorem iterate_muxStep_dimCnt (n : Nat) :
    (muxStep^[n] s).dimCnt.val = (s.dimCnt.val + (s.phase.val + n) / 12) % 10 := by
  induction n with
  | zero =>
    have := s.phase.isLt
    have := s.dimCnt.isLt
    simp only [Function.iterate_zero, id_eq]
    omega
  | succ n ih =>
    have hphase := iterate_muxStep_phase s n
    rw [Function.iterate_succ_apply', muxStep_dimCnt]
    split
    · next wraps =>
      rw [wraps] at hphase
      rw [Fin.val_add, ih]
      simp only [Fin.isValue, Fin.coe_ofNat_eq_mod] at hphase ⊢
      omega
    · next goesOn =>
      have : (muxStep^[n] s).phase.val ≠ 11 := fun h => goesOn (Fin.ext h)
      omega

theorem iterate_muxStep_tickCnt (n : Nat) : (muxStep^[n] s).tickCnt.toNat = (s.tickCnt.toNat + n) % 256 := by
  induction n with
  | zero => exact (Nat.mod_eq_of_lt s.tickCnt.isLt).symm
  | succ n ih =>
    rw [Function.iterate_succ_apply', muxStep_tickCnt, BitVec.toNat_add, ih]
    exact Nat.mod_add_mod ..

/-- Settles O31. -/
theorem countersAfterManyMuxSteps : Obligations.CountersAfterManyMuxSteps := fun n s =>
  ⟨iterate_muxStep_phase s n, iterate_muxStep_dimCnt s n, iterate_muxStep_tickCnt s n⟩

/-! ### The duty over ten frames (R224) -/

/-- At level `l`, step `j` of the 120 that start with the counters at 0 drives. -/
abbrev drivesAt (l j : Nat) : Prop := l ≤ j / 12 % 10

/-- Counters and step number together say which of the 120 steps it is. -/
theorem drives_iterate_iff (k : Nat) :
    drives (muxStep^[k] s) = true ↔ drivesAt s.dimLevel.val (12 * s.dimCnt.val + s.phase.val + k) := by
  rw [drives_iff, iterate_muxStep_dimCnt, iterate_muxStep_keeps s muxStep_dimLevel, ge_iff_le, drivesAt]
  rw [Nat.add_assoc, Nat.mul_add_div (by decide)]

theorem countP_range_eq_count (p : Nat → Bool) (n : Nat) : (List.range n).countP p = Nat.count (p · = true) n := by
  simp [Nat.count]

/-- Over a whole period it does not matter where the count starts. -/
theorem count_shift_of_periodic {p : Nat → Prop} [DecidablePred p] {c : Nat} (h : Function.Periodic p c) (a : Nat) :
    Nat.count (fun k => p (a + k)) c = Nat.count p c := by
  have hfront := Nat.count_add p a c
  have hback := Nat.count_add p c a
  have hperiod : Nat.count (fun k => p (c + k)) a = Nat.count p a := by
    congr 1
    funext k
    rw [Nat.add_comm, h]
  rw [Nat.add_comm c a] at hback
  omega

theorem drivesAt_periodic (l : Nat) : Function.Periodic (drivesAt l) 120 := by
  intro j
  have : (j + 120) / 12 % 10 = j / 12 % 10 := by omega
  simp only [drivesAt, this]

theorem count_drivesAt : ∀ l : Fin 10, Nat.count (drivesAt l.val) 120 = 12 * (10 - l.val) := by decide +kernel

/-- Settles O29: the 120 steps are one period of `drivesAt`, wherever they start. -/
theorem dutyOverTenFrames : Obligations.DutyOverTenFrames := by
  intro s
  calc drivenSteps 120 s
      = Nat.count (fun k => drivesAt s.dimLevel.val (12 * s.dimCnt.val + s.phase.val + k)) 120 := by
        simp only [drivenSteps, countP_range_eq_count, drives_iterate_iff]
    _ = Nat.count (drivesAt s.dimLevel.val) 120 := count_shift_of_periodic (drivesAt_periodic _) _
    _ = 12 * (10 - s.dimLevel.val) := count_drivesAt s.dimLevel

/-! ### A driven frame (R220, R223) -/

/-- Settles O32: step `k + 1` is the `MuxStep` that finds the phase at `k` and the dimming counter where the frame began. -/
theorem aFrameShowsEveryCellInItsPhase : Obligations.AFrameShowsEveryCellInItsPhase := by
  intro s start driven k
  have hphase : (muxStep^[k.val] s).phase = k := by
    refine Fin.ext ?_
    rw [iterate_muxStep_phase, start]
    simp
  have hdrives : drives (muxStep^[k.val] s) = true := by
    have hlevel : s.dimLevel.val ≤ s.dimCnt.val := driven
    have hdim := s.dimCnt.isLt
    have hk := k.isLt
    rw [drives_iterate_iff, start, drivesAt]
    simp only [Fin.isValue, Fin.coe_ofNat_eq_mod]
    omega
  have hbuf : (muxStep^[k.val] s).buf = s.buf := iterate_muxStep_keeps s muxStep_buf _
  rw [Function.iterate_succ_apply']
  refine ⟨?_, ?_, ?_⟩
  · simp [hphase, hdrives, hbuf]
  · simp [hphase, hdrives, onehot]
  · by_cases hk : k.val < 4 <;> simp [hphase, hdrives, onehot, hk, Nat.not_le.2]

/-! ### Ticks under the mask (R221, R229) -/

variable {s}

/-- A tick that finds the mask set is latched (R221). -/
theorem step_of_maskedTick {rest : List Event} (running : s.fault = none) (masked : s.muxMasked = true)
    (entry : s.inputs = .issue .timer 0x00000000 :: rest) :
    step s = .next { s with muxPending := true, issuer := .timer, inputs := rest } := by
  rw [stepRunsTheDecodedCommand s .timer _ rest .tick running entry (by simp) decode_tickWord]
  exact maskedTickOnlyLatchesARequest _ rfl masked

/-- Any number of them, one or more, leave the one latched request (R221). -/
theorem run_of_maskedTicks (n m : Nat) {rest : List Event} (running : s.fault = none) (masked : s.muxMasked = true)
    (entries : s.inputs = List.replicate (n + 1) (.issue .timer 0x00000000) ++ rest) :
    Host.Core.run Sys2Proof.core (n + 1 + m) s =
      Host.Core.run Sys2Proof.core m { s with muxPending := true, issuer := .timer, inputs := rest } := by
  induction n generalizing s with
  | zero => rw [Nat.add_comm, run_succ_of_step (step_of_maskedTick (rest := rest) running masked entries)]
  | succ n ih =>
    have first := step_of_maskedTick running masked entries
    rw [Nat.add_right_comm, run_succ_of_step first]
    exact ih (s := { s with muxPending := true, issuer := .timer, inputs := _ }) running masked rfl

/-- Settles O33: the ticks leave one request, and `MUX_UNMASK` runs the one step for it. -/
theorem maskedTicksCoalesceIntoOneStep : Obligations.MaskedTicksCoalesceIntoOneStep := by
  intro s n rest running free masked hn entries
  obtain ⟨n, rfl⟩ := Nat.exists_eq_succ_of_ne_zero hn.ne'
  rw [Nat.succ_eq_add_one, run_of_maskedTicks n 1 running masked entries]
  have unmask := stepRunsTheDecodedCommand
    { s with muxPending := true, issuer := .timer, inputs := .issue .main 0x50000000 :: rest } .main _ rest .muxUnmask
    running rfl (fun _ => free) decode_muxUnmaskWord
  exact run_succ_of_step (unmask.trans ((muxUnmaskRunsTheLatchedStep _ rfl).2 rfl)) 0

end Sys2Proof.Machine
end

section
/-! SUPPORT. The animation engine: lit sets position by position (R165 to R180), the flicker generator in numbers (R163), the
compute step (R160) and runs of lane sub-steps (R161), and how many bits of a ring are lit (R11, R168). -/

namespace Sys2Proof.Machine

open Sys2Proof.Terms

/-! ### Lit sets, position by position (R11, R162) -/

@[simp] theorem single_eq_true_iff (k : Nat) (q : Fin 60) : single k q = true ↔ q.val = k := by simp [single]

@[simp] theorem upto_eq_true_iff (k : Nat) (q : Fin 60) : upto k q = true ↔ q.val < k := by simp [upto]

@[simp] theorem fromPos_eq_true_iff (k : Nat) (q : Fin 60) : fromPos k q = true ↔ k ≤ q.val := by simp [fromPos]

@[simp] theorem ofList_eq_true_iff (qs : List (Fin 60)) (q : Fin 60) : ofList qs q = true ↔ q ∈ qs := by simp [ofList]

@[simp] theorem union_eq_true_iff (P Q : LitSet) (q : Fin 60) : LitSet.union P Q q = true ↔ P q = true ∨ Q q = true := by
  simp [LitSet.union]

/-- A position of a set that depends on a number's parity. -/
theorem ite_even_eq_true_iff (m : Nat) (P Q : LitSet) (q : Fin 60) :
    (if m % 2 = 0 then P else Q) q = true ↔ (m % 2 = 0 ∧ P q = true) ∨ (m % 2 = 1 ∧ Q q = true) := by
  rcases Nat.mod_two_eq_zero_or_one m with h | h <;> simp [h]

theorem ite_odd_eq_true_iff (m : Nat) (P Q : LitSet) (q : Fin 60) :
    (if m % 2 = 1 then P else Q) q = true ↔ (m % 2 = 1 ∧ P q = true) ∨ (m % 2 = 0 ∧ Q q = true) := by
  rcases Nat.mod_two_eq_zero_or_one m with h | h <;> simp [h]

/-- Only animations 14 and 15 may step the generator (R160, R179, R180). -/
theorem animate_keeps_generator (p : Config.Params) (h m s : Nat) (t r : Byte) {i : BitVec 4} (hi : i.toNat ≤ 13) :
    (animate p i h m s t r).2 = r := by
  unfold animate
  interval_cases i.toNat <;> rfl

/-- Settles O39. -/
theorem litSetsOfAnimationsZeroToEight : Obligations.LitSetsOfAnimationsZeroToEight := by
  intro p h m s t r q
  refine ⟨rfl, single_eq_true_iff s q, ?_, upto_eq_true_iff s q, fromPos_eq_true_iff s q, ?_, ?_, ?_, ?_, ?_⟩
  · simp [animate, anim2, single]
  · simp [animate, anim5, ite_odd_eq_true_iff]
  · simp [animate, anim6]
  · simp [animate, anim7, ite_even_eq_true_iff, apply_ite ofList]
  · simp [animate, anim8]
  · intro i hi
    exact animate_keeps_generator p h m s t r (by omega)

/-- Settles O40. -/
theorem litSetsOfAnimationsNineToFifteen : Obligations.LitSetsOfAnimationsNineToFifteen := by
  intro p h m s t r q
  refine ⟨?_, ?_, ?_, ?_, ?_, ?_, ?_, ?_, rfl, ?_⟩
  · simp [animate, anim9, ite_even_eq_true_iff]
  · simp [animate, anim10, hourPos]
  · simp [animate, anim11, hourPos, ite_even_eq_true_iff]
  · simp [animate, anim12, hourPos, ite_even_eq_true_iff]
  · simp [animate, anim13, hourPos, ite_even_eq_true_iff, eq_comm (a := q.val)]
  · simp [animate, anim14]
  · simp [animate, anim15, anim14, anim1, apply_ite Prod.fst, ite_even_eq_true_iff]
  · intro i _ hi
    exact animate_keeps_generator p h m s t r hi
  · simp [animate, anim15, anim14, apply_ite Prod.snd]

/-! ### The flicker generator in numbers (R163) -/

theorem foldl_xor_eq (f : Nat → Bool) (ks : List Nat) (acc : Bool) :
    ks.foldl (fun acc k => acc ^^ f k) acc = (acc ^^ decide (ks.countP f % 2 = 1)) := by
  induction ks generalizing acc with
  | nil => simp
  | cons k ks ih =>
    rw [List.foldl_cons, ih, List.countP_cons]
    cases f k with
    | false => simp
    | true =>
      rcases Nat.mod_two_eq_zero_or_one (ks.countP f) with h | h <;> simp [h, Nat.add_mod]

theorem parity_eq (v : Byte) : parity v = decide (popcount v % 2 = 1) := by
  rw [parity, foldl_xor_eq, Bool.false_xor, popcount]

/-- Settles O41: in 8 bits the shifted value is even, so adding the parity does not carry out. -/
theorem flickerStepInNumbers : Obligations.FlickerStepInNumbers := by
  intro taps r
  refine ⟨?_, lfsrStep_lt taps r⟩
  have hparity : (if parity (r &&& taps) then 1 else 0 : Byte).toNat = popcount (r &&& taps) % 2 := by
    rw [parity_eq]
    rcases Nat.mod_two_eq_zero_or_one (popcount (r &&& taps)) with h | h <;> simp [h]
  rw [lfsrStep, BitVec.toNat_umod, BitVec.toNat_add, hparity, BitVec.toNat_shiftLeft, Nat.shiftLeft_eq,
    show (60 : Byte).toNat = 60 from rfl]
  omega

/-- Settles O42. -/
theorem flickerFixedPointsUnderTheDefaultTaps : Obligations.FlickerFixedPointsUnderTheDefaultTaps := by
  unfold Obligations.FlickerFixedPointsUnderTheDefaultTaps
  decide +kernel

end Sys2Proof.Machine
end

section
/-! SUPPORT. `ANIM_STEP` from its compute step to its last lane (R160, R161, R64), and how many LEDs it leaves lit (R11,
R168). -/

namespace Sys2Proof.Machine

open Sys2Proof.Terms

variable {s t : State}

/-! ### The compute step (R160) -/

theorem animSkips_iff (i : BitVec 4) (m : Byte) (s : State) :
    animSkips i m s = true ↔ i = 10 ∧ s.lastIdx = some 10 ∧ s.lastMin = some m := by
  simp [animSkips, and_assoc]

/-- Bit `b` of lane `j` is lit exactly when some lit position is mapped to ring bit `8j + b` (R11). -/
theorem getLsbD_lanesOf_ring (p : Config.Params) (P : LitSet) (j b : Fin 8) :
    (lanesOf (ring p P))[j].getLsbD b.val = true ↔ ∃ q, P q = true ∧ p.posMap[q].val = 8 * j.val + b.val := by
  rw [lanesOf_get, getLsbD_laneOf _ _ _ b.isLt, getLsbD_ring p P _ (by omega)]

/-- Settles O37: the command passes the checks, and the compute step has these two cases. -/
theorem animStepComputesTheLanes : Obligations.AnimStepComputesTheLanes := by
  intro s i h m sec main hh hm hsec
  rw [exec_of_admitted ((admission_animStep s i h m sec).2 ⟨main, hh, hm, hsec⟩), effectOf, ← animSkips_iff]
  obtain ⟨skip, ha⟩ | ⟨draw, ha⟩ := animCompute_cases s i h m sec
  · exact ⟨fun _ => congrArg _ ha, fun draw => absurd skip draw⟩
  · refine ⟨fun skip => absurd skip (by simp [draw]), fun _ => ⟨_, congrArg _ ha, fun j b => getLsbD_lanesOf_ring ..⟩⟩

/-! ### One lane sub-step (R161) -/

/-- MAIN's turn inside an animation writes the next lane (R64, R161). -/
theorem step_of_lane {j : Fin 8} {lanes : Vector Byte 8} {rest : List Event} (running : s.fault = none)
    (inProgress : s.busy = some (.anim j lanes)) (entry : s.inputs = .proceed :: rest) :
    step s = .next { s with
      inputs := rest
      buf := s.buf.set (4 + j.val) lanes[j]
      busy := if h : j.val < 7 then some (.anim ⟨j.val + 1, by omega⟩ lanes) else none } := by
  have next : (if j = 7 then none else some (Progress.anim (j + 1) lanes)) =
      if h : j.val < 7 then some (.anim ⟨j.val + 1, by omega⟩ lanes) else none := by
    have hj := j.isLt
    by_cases last : j.val < 7
    · have hne : j ≠ 7 := fun h => absurd last (by simp [h])
      have hsucc : j + 1 = ⟨j.val + 1, by omega⟩ := Fin.ext (Nat.mod_eq_of_lt (show j.val + 1 < 8 by omega))
      rw [if_neg hne, dif_pos last, hsucc]
    · have heq : j = 7 := Fin.ext (show j.val = 7 by omega)
      rw [if_pos heq, dif_neg last]
  rw [step_of_proceed running inProgress entry, subStep, laneStep_eq, next]
  rfl

/-! ### Runs -/

/-- A run of any machine goes on from the state its first `m` steps answer. -/
theorem core_run_add (M : Host.Core) {m : Nat} {s t : M.State} (h : M.run m s = .next t) (n : Nat) :
    M.run (m + n) s = M.run n t := by
  induction m generalizing s with
  | zero => cases h; rw [Nat.zero_add]
  | succ m ih =>
    cases hstep : M.step s with
    | next u =>
      rw [core_run_succ M hstep] at h
      rw [Nat.add_right_comm, core_run_succ M hstep, ih h]
    | fault r => simp [Host.Core.run, hstep] at h
    | refused r => simp [Host.Core.run, hstep] at h

/-- One more step at the end of a run. -/
theorem run_succ_of_run {m : Nat} {u : State} (h : Host.Core.run Sys2Proof.core m s = .next t)
    (hstep : step t = .next u) : Host.Core.run Sys2Proof.core (m + 1) s = .next u := by
  rw [core_run_add _ h, run_succ_of_step hstep, run_zero]

/-- MAIN's next turn comes off the front of its turns. -/
theorem alone_pos {n : Nat} (h : 0 < n) : alone n = .proceed :: alone (n - 1) := by
  obtain ⟨n, rfl⟩ := Nat.exists_eq_succ_of_ne_zero h.ne'
  rfl

/-! ### The eight lanes, one after the other (R64, R161) -/

/-- The buffer with lanes 0 to `k - 1` in their cells (R22, R161). -/
def lanesWritten (lanes : Vector Byte 8) (k : Nat) (buf : Vector Byte 12) : Vector Byte 12 :=
  Vector.ofFn fun c => if h : 4 ≤ c.val ∧ c.val < 4 + k then lanes[c.val - 4] else buf[c]

theorem lanesWritten_lane (lanes : Vector Byte 8) (k : Nat) (buf : Vector Byte 12) (j : Fin 8) :
    (lanesWritten lanes k buf)[4 + j.val] = if j.val < k then lanes[j] else buf[4 + j.val] := by
  simp only [lanesWritten, Vector.getElem_ofFn]
  split
  · next h => rw [if_pos (by omega)]; simp
  · next h => rw [if_neg (by omega)]; rfl

theorem lanesWritten_digit (lanes : Vector Byte 8) (k : Nat) (buf : Vector Byte 12) (d : Fin 4) :
    (lanesWritten lanes k buf)[d.val] = buf[d.val] := by
  simp [lanesWritten, show ¬ 4 ≤ d.val by omega]

theorem lanesWritten_zero (lanes : Vector Byte 8) (buf : Vector Byte 12) : lanesWritten lanes 0 buf = buf := by
  refine Vector.ext fun c hc => ?_
  simp only [lanesWritten, Vector.getElem_ofFn]
  rw [dif_neg (by omega)]
  rfl

theorem lanesWritten_succ (lanes : Vector Byte 8) {k : Nat} (hk : k < 8) (buf : Vector Byte 12) :
    lanesWritten lanes (k + 1) buf = (lanesWritten lanes k buf).set (4 + k) lanes[k] := by
  refine Vector.ext fun c hc => ?_
  simp only [lanesWritten, Vector.getElem_ofFn, Vector.getElem_set]
  by_cases hck : 4 + k = c
  · subst hck
    simp
  · have hiff : (4 ≤ c ∧ c < 4 + (k + 1)) ↔ 4 ≤ c ∧ c < 4 + k := by omega
    simp only [hck, hiff, if_false]

/-- `s` after `k` of the eight lane sub-steps. -/
def afterLanes (s : State) (lanes : Vector Byte 8) (rest : List Event) (k : Nat) : State :=
  { s with
    buf := lanesWritten lanes k s.buf
    busy := if h : k < 8 then some (.anim ⟨k, h⟩ lanes) else none
    inputs := alone (8 - k) ++ rest }

theorem step_afterLanes (lanes : Vector Byte 8) (rest : List Event) {k : Nat} (hk : k < 8) (running : s.fault = none) :
    step (afterLanes s lanes rest k) = .next (afterLanes s lanes rest (k + 1)) := by
  have entry : (afterLanes s lanes rest k).inputs = .proceed :: (alone (8 - (k + 1)) ++ rest) := by
    simp only [afterLanes, alone_pos (show 0 < 8 - k by omega), List.cons_append]
    rfl
  rw [step_of_lane (s := afterLanes s lanes rest k) (j := ⟨k, hk⟩) running (dif_pos hk) entry]
  simp [afterLanes, lanesWritten_succ lanes hk, show k + 1 < 8 ↔ k < 7 by omega]

theorem run_afterLanes (lanes : Vector Byte 8) (rest : List Event) {k : Nat} (hk : k ≤ 8) (running : s.fault = none) :
    Host.Core.run Sys2Proof.core k (afterLanes s lanes rest 0) = .next (afterLanes s lanes rest k) := by
  induction k with
  | zero => rfl
  | succ k ih => exact run_succ_of_run (ih (by omega)) (step_afterLanes lanes rest hk running)

/-- Settles O38, by induction on the number of sub-steps, each writing the lane after those that stand. -/
theorem laneSubStepsWriteTheEightLanes : Obligations.LaneSubStepsWriteTheEightLanes := by
  intro s lanes rest k hk running inProgress entries
  have start : s = afterLanes s lanes rest 0 := by
    cases s
    simp_all [afterLanes, lanesWritten_zero]
  exact ⟨afterLanes s lanes rest k, (congrArg _ start).trans (run_afterLanes lanes rest hk running),
    lanesWritten_lane lanes k s.buf, lanesWritten_digit lanes k s.buf, rfl⟩

end Sys2Proof.Machine
end

section
/-! SUPPORT. How many LEDs of the ring `ANIM_STEP` leaves lit: as many as its lit set has positions, since the position map is
injective (R8, R11, R168). -/

namespace Sys2Proof.Machine

open Sys2Proof.Terms

/-! ### Counting bits lane by lane -/

theorem countP_range_mul (f : Nat → Bool) (n m : Nat) :
    (List.range (n * m)).countP f = ((List.range m).map fun j => (List.range n).countP fun b => f (n * j + b)).sum := by
  induction m with
  | zero => rfl
  | succ m ih =>
    rw [Nat.mul_succ, List.range_add, List.countP_append, ih, List.countP_map, List.range_succ, List.map_append,
      List.sum_append, List.map_singleton, List.sum_singleton]
    rfl

/-- If bit `b` of lane `j` of the buffer is `lit (8j + b)`, as many LEDs are lit as `lit` has numbers below 64. -/
theorem ringCount_eq_countP {t : State} {lit : Nat → Bool}
    (h : ∀ j b : Fin 8, t.buf[4 + j.val].getLsbD b.val = lit (8 * j.val + b.val)) :
    ringCount t = (List.range 64).countP lit := by
  refine Eq.trans ?_ (countP_range_mul lit 8 8).symm
  refine congrArg List.sum (List.map_congr_left fun j hj => ?_)
  have hj8 : j < 8 := List.mem_range.1 hj
  have hcell : t.buf.toList.getD (4 + j) 0 = t.buf[4 + j] := by
    rw [List.getD_eq_getElem _ _ (by simp; omega), Vector.getElem_toList]
  rw [hcell, popcount]
  refine List.countP_congr fun b hb => ?_
  rw [h ⟨j, hj8⟩ ⟨b, List.mem_range.1 hb⟩]

/-! ### Counting lit positions through the position map (R8, R11) -/

theorem posMap_injective {p : Config.Params} (h : p.wf = true) : Function.Injective fun q : Fin 60 => p.posMap[q].val := by
  intro q r hqr
  have hget : p.posMap.toList[q.val]'(by simp) = p.posMap.toList[r.val]'(by simp) := by
    simpa using Fin.ext hqr
  exact Fin.ext ((posMap_nodup_of_wf h).getElem_inj_iff.1 hget)

/-- Ring bit `i` is one that a position below `k` is mapped to. -/
def litBelow (p : Config.Params) (k i : Nat) : Bool := decide (∃ q : Fin 60, q.val < k ∧ p.posMap[q].val = i)

/-- An injective map lights one ring bit for each position below `k`. -/
theorem countP_litBelow {p : Config.Params} (h : p.wf = true) {k : Nat} (hk : k ≤ 60) :
    (List.range 64).countP (litBelow p k) = k := by
  have himage : (Finset.range 64).filter (fun i => litBelow p k i = true) =
      (Finset.univ.filter fun q : Fin 60 => q.val < k).image fun q => p.posMap[q].val := by
    ext i
    simp only [litBelow, decide_eq_true_eq, Finset.mem_filter, Finset.mem_range, Finset.mem_image, Finset.mem_univ, true_and]
    refine and_iff_right_of_imp ?_
    rintro ⟨q, -, rfl⟩
    exact (p.posMap[q]).isLt
  rw [countP_range_eq_count, Nat.count_eq_card_filter_range, himage, Finset.card_image_of_injective _ (posMap_injective h),
    Fin.card_filter_val_lt]
  omega

/-! ### The cumulative fill (R168) -/

/-- `ANIM_STEP 3` is never skipped, and leaves lanes whose bits are the positions below the second (R160, R168). -/
theorem exec_cumulativeFill {s : State} {h m sec : Byte} (main : s.issuer = .main) (hh : h.toNat < 24) (hm : m.toNat < 60)
    (hsec : sec.toNat < 60) :
    ∃ (u : State) (lanes : Vector Byte 8), exec (.animStep 3 h m sec) s = .next u ∧ u.fault = s.fault ∧ u.inputs = s.inputs ∧
      u.busy = some (.anim 0 lanes) ∧
      ∀ j b : Fin 8, lanes[j].getLsbD b.val = litBelow s.params sec.toNat (8 * j.val + b.val) := by
  obtain ⟨lanes, hexec, hbits⟩ := (animStepComputesTheLanes s 3 h m sec main hh hm hsec).2 (by simp)
  refine ⟨_, lanes, hexec, rfl, rfl, rfl, fun j b => ?_⟩
  rw [Bool.eq_iff_iff, hbits]
  simp [litBelow, animate, anim3]

/-- Settles O43: the compute step leaves lanes that hold the positions below `sec`, and the eight lane sub-steps write them. -/
theorem cumulativeFillLightsExactlySecondsLeds : Obligations.CumulativeFillLightsExactlySecondsLeds := by
  intro s h m sec rest hwf running free hh hm hsec entries
  have hstep := stepRunsTheDecodedCommand s .main _ _ _ running entries (fun _ => free) (decode_encode _)
  obtain ⟨u, lanes, hexec, hfault, hinputs, hbusy, hbits⟩ :=
    exec_cumulativeFill (s := { s with inputs := alone 8 ++ rest, issuer := .main }) rfl hh hm hsec
  obtain ⟨t, hrun, hlanes, -, ht⟩ :=
    laneSubStepsWriteTheEightLanes u lanes rest 8 le_rfl (hfault.trans running) hbusy hinputs
  refine ⟨t, (run_succ_of_step (hstep.trans hexec) 8).trans hrun, ?_, by rw [ht]; rfl, by rw [ht]; rfl⟩
  rw [ringCount_eq_countP (lit := litBelow s.params sec.toNat), countP_litBelow hwf (by omega)]
  intro j b
  rw [hlanes, if_pos j.isLt, hbits]

end Sys2Proof.Machine
end

section
/-! SUPPORT. The slots as the statements write them out (R101, R102, R103), the checksum (R102, R113), and storing a group
in the shadow (R105). -/

namespace Sys2Proof.Machine

open Sys2Proof.Terms

variable {s t : State}

/-! ### The checksum (R102, R113) -/

theorem cks_cons (v : Byte) (vals : List Byte) : cks (v :: vals) = v + cks vals := by
  apply BitVec.eq_of_toNat_eq
  simp [cks]

/-- Settles O51: sums do not see the order, and what one summand gains the other loses. -/
theorem checksumIsBlindToOrderAndCompensation : Obligations.ChecksumIsBlindToOrderAndCompensation := by
  refine ⟨cks_toNat, fun vals vals' hperm => ?_, fun a b k more => ?_⟩
  · rw [cks, cks, (hperm.map BitVec.toNat).sum_eq]
  · rw [cks_cons, cks_cons, cks_cons, cks_cons]
    ring

/-! ### Groups and slots, the model's and the statements' (R101, R103) -/

theorem tableFields_eq_groupFields (g : Fin 6) : tableFields g = groupFields g := by
  fin_cases g <;> rfl

/-- A group has one field or three (R101). -/
theorem groupFields_length_cases (g : Fin 6) : (groupFields g).length = 1 ∨ (groupFields g).length = 3 := by
  fin_cases g <;> decide

theorem cks_single (v : Byte) : cks [v] = v := by
  simp [cks]

theorem cks_triple (v w x : Byte) : cks [v, w, x] = v + w + x := by
  rw [cks_cons, cks_cons, cks_single, BitVec.add_assoc]

/-- The bytes of a slot, address by address (R103). -/
theorem slotImage_eq_slotCells (p : Config.Params) (g : Fin 6) {vals : List Byte}
    (hlen : vals.length = (groupFields g).length) : slotImage p g vals = slotCells (p.eeBase + 4 * g.val) vals := by
  obtain h1 | h3 := groupFields_length_cases g
  · obtain ⟨v, rfl⟩ := List.length_eq_one_iff.1 (hlen.trans h1)
    simp [slotImage, slotCells, slotBase, cks_single]
  · obtain ⟨v, w, x, rfl⟩ := List.length_eq_three.1 (hlen.trans h3)
    simp [slotImage, slotCells, slotBase, cks_triple]

theorem slotImage_shadowFields (s : State) (g : Fin 6) : slotImage s.params g (shadowFields s g) = shadowSlot s g := by
  rw [slotImage_eq_slotCells _ _ (shadowFields_length s g), shadowSlot, tableFields_eq_groupFields]
  rfl

theorem slotImage_defaultFields (s : State) (g : Fin 6) :
    slotImage s.params g (defaultFields s.params g) = defaultSlot s g := by
  rw [slotImage_eq_slotCells _ _ (defaultFields_length s.params g), defaultSlot, tableFields_eq_groupFields]
  rfl

theorem slotImage_storedFields (s : State) (g : Fin 6) :
    slotImage s.params g (storedFields s g) = storedSlot s g := by
  rw [slotImage_eq_slotCells _ _ (storedFields_length s g), storedSlot, tableFields_eq_groupFields]
  rfl

/-- Where `CFG_LOAD` goes on. -/
theorem afterGroup_eq_afterSlot (g : Fin 6) : afterGroup g = afterSlot g := by
  fin_cases g <;> rfl

/-- The EEPROM holds a slot's image exactly when it holds each field at its place and the checksum after them (R103). -/
theorem holds_slotImage_iff (s : State) (g : Fin 6) (vals : List Byte) :
    holds s (slotImage s.params g vals) ↔
      (∀ k (hk : k < vals.length), s.ee.read (slotBase s.params g + k) = vals[k]) ∧
        s.ee.read (slotBase s.params g + vals.length) = cks vals := by
  constructor
  · intro h
    have hcell : ∀ k v, (vals ++ [cks vals])[k]? = some v → s.ee.read (slotBase s.params g + k) = v := fun k v hv =>
      h _ ((mem_slotImage_iff ..).2 ⟨k, hv, rfl⟩)
    exact ⟨fun k hk => hcell k _ (by rw [List.getElem?_append_left hk, List.getElem?_eq_getElem hk]),
      hcell _ _ List.getElem?_concat_length⟩
  · rintro ⟨hfields, hsum⟩ ⟨a, v⟩ hc
    obtain ⟨k, hk, rfl⟩ := (mem_slotImage_iff ..).1 hc
    rcases Nat.lt_trichotomy k vals.length with hlt | rfl | hgt
    · rw [List.getElem?_append_left hlt, List.getElem?_eq_getElem hlt] at hk
      exact (hfields k hlt).trans (Option.some.inj hk)
    · rw [List.getElem?_concat_length] at hk
      exact hsum.trans (Option.some.inj hk)
    · have hout : (vals ++ [cks vals]).length ≤ k := by rw [List.length_append, List.length_singleton]; omega
      rw [List.getElem?_eq_none hout] at hk
      cases hk

/-- The model's check of a group is the statements' (R102). -/
theorem groupValid_iff_validSlot (s : State) (g : Fin 6) : groupValid s g = true ↔ validSlot s g := by
  have hfields : ∀ k (hk : k < (storedFields s g).length), s.ee.read (slotBase s.params g + k) = (storedFields s g)[k] := by
    intro k hk
    simp [storedFields]
  rw [validSlot, ← slotImage_storedFields, holds_slotImage_iff, and_iff_right hfields, storedFields_length, groupValid,
    beq_iff_eq, eq_comm]
  rfl

/-- A slot that holds these field bytes and their checksum reads as them, and is valid (R102, R103). -/
theorem storedFields_of_holds {g : Fin 6} {vals : List Byte} (hlen : vals.length = (groupFields g).length)
    (h : holds s (slotImage s.params g vals)) : storedFields s g = vals := by
  refine List.ext_getElem (by simp [hlen]) fun k hk hk' => ?_
  rw [← ((holds_slotImage_iff s g vals).1 h).1 k hk']
  simp [storedFields]

theorem validSlot_of_holds {g : Fin 6} {vals : List Byte} (hlen : vals.length = (groupFields g).length)
    (h : holds s (slotImage s.params g vals)) : validSlot s g := by
  rw [validSlot, ← slotImage_storedFields, storedFields_of_holds hlen h]
  exact h

/-- Settles O50: the bytes 0xFF of a single field are their own checksum, and three of them are not. -/
theorem erasedSlotPassesIffSingleField : Obligations.ErasedSlotPassesIffSingleField := by
  intro s g erased
  have hbase : ∀ k, k < 4 → s.ee.read (slotBase s.params g + k) = 0xFF := erased
  have hfirst : s.ee.read (slotBase s.params g) = 0xFF := erased 0 (by decide)
  rw [tableFields_eq_groupFields, groupValid, beq_iff_eq, storedChecksum, checksumAddr, storedFields]
  obtain h1 | h3 := groupFields_length_cases g
  · simp [h1, hfirst, hbase, List.range_succ, cks_single]
  · simp [h3, hfirst, hbase, List.range_succ, cks_triple]

/-! ### Storing a group in the shadow (R105) -/

theorem groupFields_nodup (g : Fin 6) : (groupFields g).Nodup := by
  fin_cases g <;> decide

theorem foldl_set_of_notMem (fvs : List (Fin 10 × Byte)) (cfg : Vector Byte 10) {f : Fin 10} (hf : f ∉ fvs.map Prod.fst) :
    (fvs.foldl (fun c fv => c.set fv.1 fv.2) cfg)[f] = cfg[f] := by
  induction fvs generalizing cfg with
  | nil => rfl
  | cons fv rest ih =>
    simp only [List.map_cons, List.mem_cons, not_or] at hf
    rw [List.foldl_cons, ih _ hf.2]
    exact Vector.getElem_set_ne _ _ fun h => hf.1 (Fin.ext h.symm)

theorem foldl_set_of_mem {fvs : List (Fin 10 × Byte)} (cfg : Vector Byte 10) {f : Fin 10} {v : Byte}
    (nodup : (fvs.map Prod.fst).Nodup) (hf : (f, v) ∈ fvs) :
    (fvs.foldl (fun c fv => c.set fv.1 fv.2) cfg)[f] = v := by
  induction fvs generalizing cfg with
  | nil => cases hf
  | cons fv rest ih =>
    obtain ⟨hfresh, nodup⟩ := List.nodup_cons.1 nodup
    rw [List.foldl_cons]
    obtain rfl | hf := List.mem_cons.1 hf
    · rw [foldl_set_of_notMem _ _ hfresh]
      exact Vector.getElem_set_self ..
    · exact ih _ nodup hf

/-- Storing a group leaves the fields of the others alone. -/
theorem storeGroup_other {g : Fin 6} {vals : List Byte} (s : State) (hlen : vals.length = (groupFields g).length)
    {f : Fin 10} (hf : f ∉ groupFields g) : (storeGroup g vals s).cfg[f] = s.cfg[f] := by
  refine foldl_set_of_notMem _ _ ?_
  rwa [List.map_fst_zip (by omega)]

/-- A group that has been stored reads back. -/
theorem shadowFields_storeGroup {g : Fin 6} {vals : List Byte} (s : State) (hlen : vals.length = (groupFields g).length) :
    shadowFields (storeGroup g vals s) g = vals := by
  refine List.ext_getElem (by simp [hlen]) fun k hk hk' => ?_
  simp only [shadowFields, List.getElem_map]
  refine foldl_set_of_mem _ ?_ ?_
  · rw [List.map_fst_zip (by omega)]
    exact groupFields_nodup g
  · rw [List.mem_iff_getElem]
    exact ⟨k, by simp; omega, by simp⟩

end Sys2Proof.Machine
end

section
/-! SUPPORT. One sub-step of `CFG_LOAD` and of `CFG_COMMIT`, from each position (R105, R107, R110). -/

namespace Sys2Proof.Machine

open Sys2Proof.Terms

variable {s t : State}

/-! ### Reading and validating a group (R105, R106) -/

theorem checksumAddr_lt_eeSize (hwf : s.params.wf = true) (g : Fin 6) : checksumAddr s.params g < s.params.eeSize := by
  have := checksumAddr_lt s.params g
  have := slots_fit_of_wf hwf
  omega

/-- A valid group goes into the shadow as stored. -/
theorem validateStep_of_valid {g : Fin 6} (hwf : s.params.wf = true) (valid : validSlot s g) :
    validateStep g s = .next ((storeGroup g (storedFields s g) s).setBusy (some (afterSlot g))) := by
  rw [validateStep, if_pos (checksumAddr_lt_eeSize hwf g), if_pos ((groupValid_iff_validSlot s g).2 valid),
    afterGroup_eq_afterSlot]

/-- Any other takes its defaults, and its slot is to be rewritten. -/
theorem validateStep_of_invalid {g : Fin 6} (hwf : s.params.wf = true) (invalid : ¬ validSlot s g) :
    validateStep g s =
      .next ((storeGroup g (defaultFields s.params g) s).setBusy (some (.loadRewrite g (defaultSlot s g)))) := by
  rw [validateStep, if_pos (checksumAddr_lt_eeSize hwf g), if_neg (mt (groupValid_iff_validSlot s g).1 invalid),
    slotImage_defaultFields]

/-- Group 0's check, on its four bytes (R102). -/
theorem validSlot_zero_iff (s : State) :
    validSlot s 0 ↔ s.ee.read s.params.eeBase + s.ee.read (s.params.eeBase + 1) + s.ee.read (s.params.eeBase + 2) =
      s.ee.read (s.params.eeBase + 3) := by
  rw [← groupValid_iff_validSlot, groupValid, beq_iff_eq]
  exact iff_of_eq (congrArg (· = _) (cks_triple ..))

/-- Settles O48. -/
theorem cfgLoadReadsAndValidatesGroupZero : Obligations.CfgLoadReadsAndValidatesGroupZero := by
  intro s hwf main
  rw [exec_of_admitted ((admission_cfgLoad s).2 main), effectOf]
  constructor
  · intro valid
    exact validateStep_of_valid hwf ((validSlot_zero_iff s).2 valid)
  · intro invalid
    exact validateStep_of_invalid hwf (mt (validSlot_zero_iff s).1 invalid)

/-! ### Writing the next byte (R107, R110) -/

/-- MAIN's position in a commit with these bytes left (R110). -/
def commitLeft (cells : List Host.Cell) : Option Progress :=
  if cells.isEmpty then none else some (.commit cells)

/-- MAIN's position in a load with these bytes of group `g` left to rewrite (R105, R107). -/
def rewriteLeft (g : Fin 6) (cells : List Host.Cell) : Option Progress :=
  some (if cells.isEmpty then afterGroup g else .loadRewrite g cells)

theorem commitStep_cons {a : Nat} (ha : a < s.params.eeSize) (v : Byte) (more : List Host.Cell) :
    commitStep ((a, v) :: more) s = .next ((s.putByte a v).setBusy (commitLeft more)) := by
  rw [commitStep, writeThen, if_pos ha]
  rfl

theorem rewriteStep_cons {a : Nat} (ha : a < s.params.eeSize) (g : Fin 6) (v : Byte) (more : List Host.Cell) :
    rewriteStep g ((a, v) :: more) s = .next ((s.putByte a v).setBusy (rewriteLeft g more)) := by
  rw [rewriteStep, writeThen, if_pos ha]
  rfl

theorem step_of_commit {a : Nat} {v : Byte} {more : List Host.Cell} {rest : List Event} (running : s.fault = none)
    (inProgress : s.busy = some (.commit ((a, v) :: more))) (entry : s.inputs = .proceed :: rest)
    (ha : a < s.params.eeSize) : step s = .next (((s.setInputs rest).putByte a v).setBusy (commitLeft more)) := by
  rw [step_of_proceed running inProgress entry]
  exact commitStep_cons (s := s.setInputs rest) ha v more

theorem step_of_rewrite {g : Fin 6} {a : Nat} {v : Byte} {more : List Host.Cell} {rest : List Event}
    (running : s.fault = none) (inProgress : s.busy = some (.loadRewrite g ((a, v) :: more)))
    (entry : s.inputs = .proceed :: rest) (ha : a < s.params.eeSize) :
    step s = .next (((s.setInputs rest).putByte a v).setBusy (rewriteLeft g more)) := by
  rw [step_of_proceed running inProgress entry]
  exact rewriteStep_cons (s := s.setInputs rest) ha g v more

/-- A byte write changes no other byte. -/
theorem sameOutside_putByte (canonical : s.ee.wf = true) (a : Nat) (v : Byte) : sameOutside s (s.putByte a v) [a] :=
  fun b hb => read_write_other a b v canonical (by simpa using hb)

/-- A slot begins at its base, and another byte follows. -/
theorem shadowSlot_eq_cons (s : State) (g : Fin 6) :
    ∃ v more, shadowSlot s g = (s.params.eeBase + 4 * g.val, v) :: more ∧ more ≠ [] := by
  fin_cases g <;> exact ⟨_, _, rfl, List.cons_ne_nil _ _⟩

theorem commitLeft_of_ne_nil {cells : List Host.Cell} (h : cells ≠ []) : commitLeft cells = some (.commit cells) := by
  rw [commitLeft, if_neg (by simpa using h)]

/-- An admitted `CFG_COMMIT` is a commit sub-step with the whole slot left (R110). -/
theorem exec_cfgCommit_eq {g : BitVec 4} (hg : g.toNat < 6) (main : s.issuer = .main) (loaded : s.cfgLoaded = true) :
    exec (.cfgCommit g) s = commitStep (shadowSlot s ⟨g.toNat, hg⟩) s := by
  rw [exec_of_admitted ((admission_cfgCommit s g).2 ⟨main, hg, loaded⟩), effectOf, groupOf_eq hg, slotImage_shadowFields]

/-- Settles O46: the command begins as a commit sub-step on the whole slot. -/
theorem cfgCommitWritesItsFirstByte : Obligations.CfgCommitWritesItsFirstByte := by
  intro s g hg hinv main loaded
  obtain ⟨v, more, hslot, hmore⟩ := shadowSlot_eq_cons s ⟨g.toNat, hg⟩
  have hfit := hinv.slots_fit
  have hexec : exec (.cfgCommit g) s =
      .next ((s.putByte (s.params.eeBase + 4 * g.toNat) v).setBusy (some (.commit more))) := by
    rw [exec_cfgCommit_eq hg main loaded, hslot, commitStep_cons (by simp only; omega), commitLeft_of_ne_nil hmore]
  exact ⟨_, _, more, hslot, rfl, hexec, rfl, read_write_same _ v hinv.canonical, sameOutside_putByte hinv.canonical _ v⟩

/-! ### One sub-step from each position (R64) -/

theorem step_of_validate_valid {g : Fin 6} {rest : List Event} (hwf : s.params.wf = true) (running : s.fault = none)
    (inProgress : s.busy = some (.loadValidate g)) (entry : s.inputs = .proceed :: rest) (valid : validSlot s g) :
    step s = .next ((storeGroup g (storedFields s g) (s.setInputs rest)).setBusy (some (afterSlot g))) := by
  rw [step_of_proceed running inProgress entry]
  exact validateStep_of_valid (s := s.setInputs rest) hwf valid

theorem step_of_validate_invalid {g : Fin 6} {rest : List Event} (hwf : s.params.wf = true) (running : s.fault = none)
    (inProgress : s.busy = some (.loadValidate g)) (entry : s.inputs = .proceed :: rest) (invalid : ¬ validSlot s g) :
    step s = .next ((storeGroup g (defaultFields s.params g) (s.setInputs rest)).setBusy
      (some (.loadRewrite g (defaultSlot s g)))) := by
  rw [step_of_proceed running inProgress entry]
  exact validateStep_of_invalid (s := s.setInputs rest) hwf invalid

/-- Once a group's stored fields stand in the shadow, its slot in the EEPROM is the shadow's (R103, R110). -/
theorem shadowSlot_of_stored {g : Fin 6} (hp : t.params = s.params) (hcfg : shadowFields t g = storedFields s g) :
    shadowSlot t g = storedSlot s g := by
  rw [← slotImage_shadowFields, hp, hcfg, slotImage_storedFields]

theorem holds_shadowSlot_of_stored {g : Fin 6} (hp : t.params = s.params) (hcfg : shadowFields t g = storedFields s g)
    (valid : validSlot s g) : holds s (shadowSlot t g) := by
  rw [shadowSlot_of_stored hp hcfg]
  exact valid

/-- A group's fields are the defaults as soon as its bytes in the shadow are (R104). -/
theorem cfg_of_default {g : Fin 6} (hcfg : shadowFields t g = defaultFields s.params g) {f : Fin 10}
    (hf : f ∈ groupFields g) : t.cfg[f] = s.params.defaults[f] :=
  List.map_inj_left.1 hcfg f hf

/-- Settles O60. -/
theorem oneSubStepFromEveryPosition : Obligations.OneSubStepFromEveryPosition := by
  intro s rest hinv running entry
  refine ⟨?lane, ?validate, ?rewrite, ?finish, ?commit⟩
  case lane =>
    intro j lanes inProgress
    exact step_of_lane running inProgress entry
  case validate =>
    intro g inProgress
    rw [tableFields_eq_groupFields]
    by_cases valid : validSlot s g
    · refine ⟨_, step_of_validate_valid hinv.params running inProgress entry valid, fun f hf => ?_, fun _ => ⟨?_, rfl⟩,
        fun invalid => absurd valid invalid⟩
      · exact storeGroup_other (s.setInputs rest) (storedFields_length s g) hf
      · exact holds_shadowSlot_of_stored (t := storeGroup g (storedFields s g) (s.setInputs rest)) rfl
          (shadowFields_storeGroup (s.setInputs rest) (storedFields_length s g)) valid
    · refine ⟨_, step_of_validate_invalid hinv.params running inProgress entry valid, fun f hf => ?_,
        fun valid' => absurd valid' valid, fun _ => ⟨fun f hf => ?_, rfl⟩⟩
      · exact storeGroup_other (s.setInputs rest) (defaultFields_length s.params g) hf
      · exact cfg_of_default (shadowFields_storeGroup (s.setInputs rest) (defaultFields_length s.params g)) hf
  case rewrite =>
    intro g a v more inProgress
    have hin := writesNext_lt (w := 0) hinv (.inr (.inl ⟨g, v, more, inProgress⟩))
    refine ⟨_, step_of_rewrite running inProgress entry hin, read_write_same a v hinv.canonical,
      sameOutside_putByte (s := s) hinv.canonical a v, ?_⟩
    rw [← afterGroup_eq_afterSlot]
    rfl
  case finish =>
    intro inProgress
    rw [step_of_proceed running inProgress entry]
    rfl
  case commit =>
    intro a v more inProgress
    have hin := writesNext_lt (w := 0) hinv (.inl ⟨v, more, inProgress⟩)
    exact ⟨_, step_of_commit running inProgress entry hin, read_write_same a v hinv.canonical,
      sameOutside_putByte (s := s) hinv.canonical a v, rfl⟩

end Sys2Proof.Machine
end

section
/-! SUPPORT. A slot written byte by byte: what the EEPROM holds after a list of byte writes, and `CFG_COMMIT` after each of its
sub-steps (R64, R103, R107, R110). -/

namespace Sys2Proof.Machine

open Sys2Proof.Terms

/-! ### A list of byte writes, in order -/

/-- The EEPROM after these byte writes. -/
def Memory.writeAll (m : Memory) (cells : List Host.Cell) : Memory :=
  cells.foldl (fun m c => m.write c.1 c.2) m

theorem writeAll_append_singleton (m : Memory) (cells : List Host.Cell) (c : Host.Cell) :
    m.writeAll (cells ++ [c]) = (m.writeAll cells).write c.1 c.2 := by
  simp [Memory.writeAll]

theorem wf_writeAll {m : Memory} (hm : m.wf = true) (cells : List Host.Cell) : (m.writeAll cells).wf = true := by
  induction cells generalizing m with
  | nil => exact hm
  | cons c rest ih => exact ih (wf_write _ _ hm)

/-- Bytes whose address is not written read as before. -/
theorem read_writeAll_of_notMem {m : Memory} (hm : m.wf = true) {cells : List Host.Cell} {a : Nat}
    (ha : a ∉ cells.map Prod.fst) : (m.writeAll cells).read a = m.read a := by
  induction cells generalizing m with
  | nil => rfl
  | cons c rest ih =>
    simp only [List.map_cons, List.mem_cons, not_or] at ha
    exact (ih (wf_write _ _ hm) ha.2).trans (read_write_other _ _ _ hm ha.1)

/-- Each address, written once, reads as its byte. -/
theorem read_writeAll_of_mem {m : Memory} (hm : m.wf = true) {cells : List Host.Cell} (nodup : (cells.map Prod.fst).Nodup)
    {c : Host.Cell} (hc : c ∈ cells) : (m.writeAll cells).read c.1 = c.2 := by
  induction cells generalizing m with
  | nil => cases hc
  | cons d rest ih =>
    obtain ⟨hfresh, nodup⟩ := List.nodup_cons.1 nodup
    obtain rfl | hc := List.mem_cons.1 hc
    · exact (read_writeAll_of_notMem (wf_write _ _ hm) hfresh).trans (read_write_same _ _ hm)
    · exact ih (wf_write _ _ hm) nodup hc

/-! ### The addresses of a slot (R103) -/

/-- The addresses that group `g`'s slot uses: its fields' and its checksum's. -/
def slotAddrs (p : Config.Params) (g : Fin 6) : List Nat :=
  (List.range ((groupFields g).length + 1)).map (slotBase p g + ·)

theorem map_fst_slotImage (p : Config.Params) (g : Fin 6) {vals : List Byte} (hlen : vals.length = (groupFields g).length) :
    (slotImage p g vals).map Prod.fst = slotAddrs p g := by
  have hsnd : (vals ++ [cks vals]).zipIdx.map Prod.snd = List.range ((groupFields g).length + 1) := by
    rw [List.zipIdx_map_snd, List.length_append, List.length_singleton, hlen, List.range_eq_range']
  rw [slotAddrs, ← hsnd, slotImage, List.map_map, List.map_map]
  rfl

theorem slotAddrs_nodup (p : Config.Params) (g : Fin 6) : (slotAddrs p g).Nodup :=
  List.nodup_range.map fun _ _ h => Nat.add_left_cancel h

theorem mem_slotAddrs_iff (p : Config.Params) (g : Fin 6) (a : Nat) :
    a ∈ slotAddrs p g ↔ ∃ k, k ≤ (groupFields g).length ∧ a = slotBase p g + k := by
  simp [slotAddrs, eq_comm]

/-- Slots do not overlap. -/
theorem notMem_slotAddrs_of_ne {p : Config.Params} {g g' : Fin 6} (hne : g ≠ g') {a : Nat} (ha : a ∈ slotAddrs p g) :
    a ∉ slotAddrs p g' := by
  intro ha'
  obtain ⟨k, hk, rfl⟩ := (mem_slotAddrs_iff ..).1 ha
  obtain ⟨k', hk', heq⟩ := (mem_slotAddrs_iff ..).1 ha'
  have := (groupFields_length g).2
  have := (groupFields_length g').2
  simp only [slotBase] at heq
  exact hne (Fin.ext (by omega))

/-- The EEPROM has every byte of a slot (R8). -/
theorem slotImage_lt_eeSize {p : Config.Params} (hwf : p.wf = true) {g : Fin 6} {vals : List Byte}
    (hlen : vals.length = (groupFields g).length) {c : Host.Cell} (hc : c ∈ slotImage p g vals) : c.1 < p.eeSize := by
  have := (slotImage_inside hlen hc).2
  have := slots_fit_of_wf hwf
  omega

theorem slotImage_length (p : Config.Params) (g : Fin 6) {vals : List Byte} (hlen : vals.length = (groupFields g).length) :
    (slotImage p g vals).length = (groupFields g).length + 1 := by
  simp [slotImage, hlen]

/-! ### Sub-steps that write the bytes left, in order -/

/-- In the positions `left`, MAIN's turn writes the first byte left and goes on to the others. -/
def WritesInOrder (left : List Host.Cell → Option Progress) : Prop :=
  ∀ (u : State) (a : Nat) (v : Byte) (more : List Host.Cell) (rest : List Event), u.fault = none →
    u.busy = left ((a, v) :: more) → u.inputs = .proceed :: rest → a < u.params.eeSize →
    step u = .next (((u.setInputs rest).putByte a v).setBusy (left more))

theorem commitLeft_writesInOrder : WritesInOrder commitLeft :=
  fun _ _ _ _ _ running inProgress entry ha => step_of_commit running inProgress entry ha

theorem rewriteLeft_writesInOrder (g : Fin 6) : WritesInOrder (rewriteLeft g) :=
  fun _ _ _ _ _ running inProgress entry ha => step_of_rewrite running inProgress entry ha

variable {s : State} {left : List Host.Cell → Option Progress} {cells : List Host.Cell}

/-- `s` after the first `k` of these byte writes. -/
def afterWrites (left : List Host.Cell → Option Progress) (s : State) (cells : List Host.Cell) (rest : List Event) (k : Nat) :
    State :=
  { s with
    ee := s.ee.writeAll (cells.take k)
    busy := left (cells.drop k)
    inputs := alone (cells.length - k) ++ rest }

theorem step_afterWrites (h : WritesInOrder left) (rest : List Event) {k : Nat} (hk : k < cells.length)
    (running : s.fault = none) (fits : ∀ c ∈ cells, c.1 < s.params.eeSize) :
    step (afterWrites left s cells rest k) = .next (afterWrites left s cells rest (k + 1)) := by
  have entry : (afterWrites left s cells rest k).inputs = .proceed :: (alone (cells.length - (k + 1)) ++ rest) := by
    simp only [afterWrites, alone_pos (show 0 < cells.length - k by omega), List.cons_append]
    rfl
  have inProgress : (afterWrites left s cells rest k).busy = left (cells[k] :: cells.drop (k + 1)) :=
    congrArg left (List.drop_eq_getElem_cons hk)
  rw [h (afterWrites left s cells rest k) _ _ _ _ running inProgress entry (fits _ (List.getElem_mem hk))]
  simp only [afterWrites, List.take_succ_eq_append_getElem hk, writeAll_append_singleton]
  rfl

theorem run_afterWrites (h : WritesInOrder left) (rest : List Event) {k n : Nat} (hn : k + n ≤ cells.length)
    (running : s.fault = none) (fits : ∀ c ∈ cells, c.1 < s.params.eeSize) :
    Host.Core.run Sys2Proof.core n (afterWrites left s cells rest k) = .next (afterWrites left s cells rest (k + n)) := by
  induction n with
  | zero => rfl
  | succ n ih => exact run_succ_of_run (ih (by omega)) (step_afterWrites h rest hn running fits)

/-! ### `CFG_COMMIT` (R110) -/

/-- The command's own step writes the first byte of the slot. -/
theorem commitStep_eq_afterWrites (rest : List Event) (hne : cells ≠ []) (fits : ∀ c ∈ cells, c.1 < s.params.eeSize) :
    commitStep cells (s.setInputs (alone (cells.length - 1) ++ rest)) = .next (afterWrites commitLeft s cells rest 1) := by
  obtain ⟨⟨a, v⟩, more, rfl⟩ := List.exists_cons_of_ne_nil hne
  exact commitStep_cons (s := s.setInputs (alone more.length ++ rest)) (a := a) (fits (a, v) (List.mem_cons_self ..)) v more

theorem commitLeft_eq_ite {n : Nat} (k : Nat) (hlen : cells.length = n + 1) :
    commitLeft (cells.drop (k + 1)) = if k < n then some (.commit (cells.drop (k + 1))) else none := by
  by_cases hk : k < n
  · have hne : cells.drop (k + 1) ≠ [] := fun hnil => by
      have := List.drop_eq_nil_iff.1 hnil
      omega
    rw [if_pos hk, commitLeft_of_ne_nil hne]
  · rw [if_neg hk, List.drop_eq_nil_of_le (by omega)]
    rfl

/-- `CFG_COMMIT` and `k` of its sub-steps write the first `k + 1` bytes of the slot. -/
theorem run_cfgCommit {g : BitVec 4} (hg : g.toNat < 6) {rest : List Event} {k : Nat} (hwf : s.params.wf = true)
    (loaded : s.cfgLoaded = true) (running : s.fault = none) (free : s.busy = none)
    (hk : k + 1 ≤ (shadowSlot s ⟨g.toNat, hg⟩).length)
    (entries : s.inputs = .issue .main (encode (.cfgCommit g)) ::
      (alone ((shadowSlot s ⟨g.toNat, hg⟩).length - 1) ++ rest)) :
    Host.Core.run Sys2Proof.core (k + 1) s =
      .next (afterWrites commitLeft (s.setIssuer .main) (shadowSlot s ⟨g.toNat, hg⟩) rest (k + 1)) := by
  have fits : ∀ c ∈ shadowSlot s ⟨g.toNat, hg⟩, c.1 < s.params.eeSize := fun c hc =>
    slotImage_lt_eeSize hwf (shadowFields_length s _) (slotImage_shadowFields s _ ▸ hc)
  obtain ⟨v, more, hslot, -⟩ := shadowSlot_eq_cons s ⟨g.toNat, hg⟩
  have first := commitStep_eq_afterWrites (s := s.setIssuer .main) rest (by rw [hslot]; exact List.cons_ne_nil _ _) fits
  have hissue := stepRunsTheDecodedCommand s .main _ _ _ running entries (fun _ => free) (decode_encode _)
  have hstep : step s = _ :=
    hissue.trans ((exec_cfgCommit_eq (s := (s.setIssuer .main).setInputs _) hg rfl loaded).trans first)
  rw [run_succ_of_step hstep, Nat.add_comm]
  exact run_afterWrites commitLeft_writesInOrder rest (by omega) running fits

/-- Settles O47: the first step and each sub-step write the next byte of the slot, whose addresses differ. -/
theorem commitPersistsItsGroup : Obligations.CommitPersistsItsGroup := by
  intro s g hg rest k hinv loaded running free hk entries
  rw [tableFields_eq_groupFields] at hk entries ⊢
  have himage := slotImage_shadowFields s ⟨g.toNat, hg⟩
  have hlen : (shadowSlot s ⟨g.toNat, hg⟩).length = (groupFields ⟨g.toNat, hg⟩).length + 1 :=
    himage ▸ slotImage_length _ _ (shadowFields_length s _)
  have hnodup : ((shadowSlot s ⟨g.toNat, hg⟩).map Prod.fst).Nodup := by
    rw [← himage, map_fst_slotImage _ _ (shadowFields_length s _)]
    exact slotAddrs_nodup ..
  have hwritten : ∀ c ∈ (shadowSlot s ⟨g.toNat, hg⟩).take (k + 1),
      (s.ee.writeAll ((shadowSlot s ⟨g.toNat, hg⟩).take (k + 1))).read c.1 = c.2 := fun c hc =>
    read_writeAll_of_mem hinv.canonical (hnodup.sublist ((List.take_sublist ..).map _)) hc
  refine ⟨_, run_cfgCommit hg hinv.params loaded running free (by omega) (by rw [hlen]; exact entries), hwritten, ?_, ?_, ?_⟩
  · exact fun a ha => read_writeAll_of_notMem hinv.canonical ha
  · rw [afterWrites, commitLeft_eq_ite k hlen, hlen, Nat.add_sub_add_right]
    rfl
  · intro last
    have hall := List.take_of_length_le (l := shadowSlot s ⟨g.toNat, hg⟩) (i := k + 1) (by omega)
    have hfull : holds (afterWrites commitLeft (s.setIssuer .main) (shadowSlot s ⟨g.toNat, hg⟩) rest (k + 1))
        (slotImage s.params ⟨g.toNat, hg⟩ (shadowFields s ⟨g.toNat, hg⟩)) :=
      fun c hc => hwritten c (hall.symm ▸ himage ▸ hc)
    have hvalid := validSlot_of_holds (shadowFields_length s _) hfull
    exact ⟨hvalid, (groupValid_iff_validSlot ..).2 hvalid⟩

end Sys2Proof.Machine
end

section
/-! SUPPORT. `CFG_LOAD` run to its end: each group is read, kept or rewritten, and those after it find their slots as the load
found them (R105, R107, R112). -/

namespace Sys2Proof.Machine

open Sys2Proof.Terms

variable {s t u : State}

/-! ### Runs of MAIN's turns alone (R64) -/

/-- MAIN alone, in some number of its turns, takes the block from `s` to `t`; the entries of both states are left open. -/
def Reaches (s t : State) : Prop :=
  ∃ n, ∀ rest, Host.Core.run Sys2Proof.core n (s.setInputs (alone n ++ rest)) = .next (t.setInputs rest)

theorem Reaches.refl (s : State) : Reaches s s := ⟨0, fun _ => rfl⟩

theorem Reaches.trans (h : Reaches s t) (h' : Reaches t u) : Reaches s u := by
  obtain ⟨m, hm⟩ := h
  obtain ⟨n, hn⟩ := h'
  refine ⟨m + n, fun rest => ?_⟩
  have halone : alone (m + n) ++ rest = alone m ++ (alone n ++ rest) := by
    rw [alone, List.replicate_add, List.append_assoc]
    rfl
  rw [halone, core_run_add _ (hm _)]
  exact hn rest

theorem Reaches.of_step (h : ∀ rest, step (s.setInputs (.proceed :: rest)) = .next (t.setInputs rest)) : Reaches s t :=
  ⟨1, fun rest => run_succ_of_step (h rest) 0⟩

/-! ### What a slot and a group depend on (R101, R103) -/

theorem mem_slotAddrs_of_lt {p : Config.Params} {g : Fin 6} {k : Nat} (hk : k ≤ (groupFields g).length) :
    slotBase p g + k ∈ slotAddrs p g :=
  (mem_slotAddrs_iff ..).2 ⟨k, hk, rfl⟩

/-- `t` has the parameters of `s` and reads as `s` in the slot of group `g`. -/
structure SameSlot (s t : State) (g : Fin 6) : Prop where
  params : t.params = s.params
  reads  : ∀ a ∈ slotAddrs s.params g, t.ee.read a = s.ee.read a

variable {g : Fin 6}

theorem SameSlot.storedFields (h : SameSlot s t g) : storedFields t g = storedFields s g := by
  refine List.map_congr_left fun k hk => ?_
  have hk' := List.mem_range.1 hk
  rw [h.params]
  exact h.reads _ (mem_slotAddrs_of_lt hk'.le)

theorem SameSlot.holds_iff (h : SameSlot s t g) {vals : List Byte} (hlen : vals.length = (groupFields g).length) :
    holds t (slotImage s.params g vals) ↔ holds s (slotImage s.params g vals) := by
  refine forall₂_congr fun c hc => ?_
  rw [h.reads c.1 (map_fst_slotImage _ _ hlen ▸ List.mem_map_of_mem hc)]

theorem SameSlot.validSlot_iff (h : SameSlot s t g) : validSlot t g ↔ validSlot s g := by
  rw [validSlot, validSlot, ← slotImage_storedFields, ← slotImage_storedFields, h.storedFields, h.params,
    h.holds_iff (storedFields_length s g)]

/-! ### A group that the load has dealt with (R105, R106) -/

/-- What the load leaves of group `g` in `t`, having begun in `s`: a valid slot, equal to the shadow's; the one that `s` held if
it was valid, else the defaults'. -/
structure GroupLoaded (s t : State) (g : Fin 6) : Prop where
  valid     : validSlot t g
  shadow    : holds t (shadowSlot t g)
  kept      : validSlot s g → holds t (storedSlot s g)
  defaulted : ¬ validSlot s g → holds t (defaultSlot s g)

/-- It does not matter from which state with the same slot the load began. -/
theorem GroupLoaded.of_same_start (same : SameSlot s u g) (h : GroupLoaded u t g) : GroupLoaded s t g where
  valid := h.valid
  shadow := h.shadow
  kept hv := by
    rw [← slotImage_storedFields, ← same.storedFields, ← same.params, slotImage_storedFields]
    exact h.kept (same.validSlot_iff.2 hv)
  defaulted hv := by
    rw [← slotImage_defaultFields, ← same.params, slotImage_defaultFields]
    exact h.defaulted (mt same.validSlot_iff.1 hv)

/-- It lasts as long as the slot and the group's fields in the shadow. -/
theorem GroupLoaded.of_same_end (h : GroupLoaded s u g) (hp : u.params = s.params) (same : SameSlot u t g)
    (hcfg : shadowFields t g = shadowFields u g) : GroupLoaded s t g where
  valid := same.validSlot_iff.2 h.valid
  shadow := by
    rw [← slotImage_shadowFields, hcfg, same.params, same.holds_iff (shadowFields_length u g), slotImage_shadowFields]
    exact h.shadow
  kept hv := by
    rw [← slotImage_storedFields, ← hp, same.holds_iff (storedFields_length s g), hp, slotImage_storedFields]
    exact h.kept hv
  defaulted hv := by
    rw [← slotImage_defaultFields, ← hp, same.holds_iff (defaultFields_length u.params g), hp, slotImage_defaultFields]
    exact h.defaulted hv

/-! ### The load's sub-steps of one group -/

/-- What the sub-steps of group `g` do besides: the other groups' fields and slots are as they were. -/
structure GroupStep (s t : State) (g : Fin 6) : Prop where
  frame     : t = { s with cfg := t.cfg, ee := t.ee, busy := some (afterSlot g) }
  canonical : t.ee.wf = true
  loaded    : GroupLoaded s t g
  fields    : ∀ f, f ∉ groupFields g → t.cfg[f] = s.cfg[f]
  reads     : ∀ a, a ∉ slotAddrs s.params g → t.ee.read a = s.ee.read a

/-- The bytes left of a rewrite are all written, and the load goes on. -/
theorem reaches_of_rewrite {cells : List Host.Cell} (hne : cells ≠ []) (running : s.fault = none)
    (fits : ∀ c ∈ cells, c.1 < s.params.eeSize) (inProgress : s.busy = some (.loadRewrite g cells)) :
    Reaches s { s with ee := s.ee.writeAll cells, busy := some (afterSlot g) } := by
  refine ⟨cells.length, fun rest => ?_⟩
  have hrun := run_afterWrites (rewriteLeft_writesInOrder g) rest (k := 0) (n := cells.length) (by omega) running fits
  have hstart : afterWrites (rewriteLeft g) s cells rest 0 = s.setInputs (alone cells.length ++ rest) := by
    have hleft : rewriteLeft g cells = s.busy := by
      rw [rewriteLeft, if_neg (by simpa using hne), inProgress]
    rw [afterWrites, List.drop_zero, hleft]
    rfl
  rw [← hstart, hrun, afterWrites, Nat.zero_add, List.take_length, List.drop_length, Nat.sub_self, ← afterGroup_eq_afterSlot]
  rfl

theorem groupStep_of_valid (hwf : s.params.wf = true) (canonical : s.ee.wf = true) (running : s.fault = none)
    (inProgress : s.busy = some (.loadValidate g)) (valid : validSlot s g) : ∃ t, Reaches s t ∧ GroupStep s t g := by
  have hshadow := shadowFields_storeGroup s (storedFields_length s g)
  refine ⟨(storeGroup g (storedFields s g) s).setBusy (some (afterSlot g)), Reaches.of_step fun rest => ?_, ?_⟩
  · exact step_of_validate_valid (s := s.setInputs (.proceed :: rest)) hwf running inProgress rfl valid
  · exact {
      frame := rfl
      canonical := canonical
      loaded := ⟨valid, holds_shadowSlot_of_stored (t := storeGroup g (storedFields s g) s) rfl hshadow valid,
        fun _ => valid, fun invalid => absurd valid invalid⟩
      fields := fun f hf => storeGroup_other s (storedFields_length s g) hf
      reads := fun _ _ => rfl }

/-- `s` with group `g`'s defaults in the shadow and in its slot, the load gone on to the next group. -/
def withDefaults (s : State) (g : Fin 6) : State :=
  { storeGroup g (defaultFields s.params g) s with ee := s.ee.writeAll (defaultSlot s g), busy := some (afterSlot g) }

theorem reaches_withDefaults (hwf : s.params.wf = true) (running : s.fault = none)
    (inProgress : s.busy = some (.loadValidate g)) (invalid : ¬ validSlot s g) : Reaches s (withDefaults s g) := by
  have himage := slotImage_defaultFields s g
  refine .trans (.of_step fun rest => ?_) (reaches_of_rewrite
    (s := (storeGroup g (defaultFields s.params g) s).setBusy (some (.loadRewrite g (defaultSlot s g)))) ?_ running ?_ rfl)
  · exact step_of_validate_invalid (s := s.setInputs (.proceed :: rest)) hwf running inProgress rfl invalid
  · exact himage ▸ slotImage_ne_nil _ _ _
  · exact fun c hc => slotImage_lt_eeSize hwf (defaultFields_length s.params g) (himage ▸ hc)

theorem holds_withDefaults (canonical : s.ee.wf = true) (g : Fin 6) : holds (withDefaults s g) (defaultSlot s g) := by
  intro c hc
  refine read_writeAll_of_mem canonical ?_ hc
  rw [← slotImage_defaultFields, map_fst_slotImage _ _ (defaultFields_length s.params g)]
  exact slotAddrs_nodup ..

theorem groupLoaded_withDefaults (canonical : s.ee.wf = true) (invalid : ¬ validSlot s g) :
    GroupLoaded s (withDefaults s g) g := by
  have hlen := defaultFields_length s.params g
  have hheld := holds_withDefaults canonical g
  have hshadow : shadowSlot (withDefaults s g) g = defaultSlot s g := by
    rw [← slotImage_shadowFields, ← slotImage_defaultFields]
    exact congrArg (slotImage s.params g) (shadowFields_storeGroup s hlen)
  rw [← slotImage_defaultFields] at hheld
  refine ⟨validSlot_of_holds (s := withDefaults s g) hlen hheld, ?_, fun valid => absurd valid invalid, fun _ => ?_⟩
  · rw [hshadow, ← slotImage_defaultFields]
    exact hheld
  · rw [← slotImage_defaultFields]
    exact hheld

theorem groupStep_of_invalid (hwf : s.params.wf = true) (canonical : s.ee.wf = true) (running : s.fault = none)
    (inProgress : s.busy = some (.loadValidate g)) (invalid : ¬ validSlot s g) : ∃ t, Reaches s t ∧ GroupStep s t g := by
  refine ⟨withDefaults s g, reaches_withDefaults hwf running inProgress invalid, ?_⟩
  exact {
    frame := rfl
    canonical := wf_writeAll canonical _
    loaded := groupLoaded_withDefaults canonical invalid
    fields := fun f hf => storeGroup_other s (defaultFields_length s.params g) hf
    reads := fun a ha => by
      refine read_writeAll_of_notMem canonical ?_
      rwa [← slotImage_defaultFields, map_fst_slotImage _ _ (defaultFields_length s.params g)] }

/-! ### The groups in order (R105) -/

/-- MAIN's position in a load once the groups below `k` are done. -/
def loadFrom (k : Nat) : Progress := if h : k < 6 then .loadValidate ⟨k, h⟩ else .loadFinish

theorem afterSlot_eq_loadFrom (g : Fin 6) : afterSlot g = loadFrom (g.val + 1) := by
  fin_cases g <;> rfl

/-- `t` is a load begun in `s` once it has dealt with the groups below `k`. -/
structure LoadedBelow (s t : State) (k : Nat) : Prop where
  frame     : t = { s with cfg := t.cfg, ee := t.ee, busy := some (loadFrom k) }
  canonical : t.ee.wf = true
  loaded    : ∀ g : Fin 6, g.val < k → GroupLoaded s t g
  reads     : ∀ a, (∀ g : Fin 6, g.val < k → a ∉ slotAddrs s.params g) → t.ee.read a = s.ee.read a

theorem groupFields_disjoint : ∀ g g' : Fin 6, g ≠ g' → ∀ f ∈ groupFields g, f ∉ groupFields g' := by decide

/-- The next group's sub-steps leave the groups before it as they are, and find its slot as the load found it. -/
theorem LoadedBelow.groupStep (h : LoadedBelow s u g.val) (hstep : GroupStep u t g) : LoadedBelow s t (g.val + 1) where
  frame := by
    have hu := h.frame
    have ht := hstep.frame
    rw [← afterSlot_eq_loadFrom]
    calc t = { u with cfg := t.cfg, ee := t.ee, busy := some (afterSlot g) } := ht
      _ = { s with cfg := t.cfg, ee := t.ee, busy := some (afterSlot g) } := by rw [hu]
  canonical := hstep.canonical
  loaded g' hg' := by
    have hp : u.params = s.params := by rw [h.frame]
    have hp' : t.params = u.params := by rw [hstep.frame]
    obtain hlt | heq := Nat.lt_succ_iff_lt_or_eq.1 hg'
    · have hne : g' ≠ g := fun heq => by simp [heq] at hlt
      refine (h.loaded g' hlt).of_same_end hp ⟨hp', fun a ha => hstep.reads a (notMem_slotAddrs_of_ne hne ha)⟩ ?_
      exact List.map_congr_left fun f hf => hstep.fields f (groupFields_disjoint g' g hne f hf)
    · obtain rfl : g' = g := Fin.ext heq
      refine hstep.loaded.of_same_start ⟨hp, fun a ha => h.reads a fun g hg => ?_⟩
      exact notMem_slotAddrs_of_ne (fun heq => by simp [heq] at hg) ha
  reads a ha := by
    have hp : u.params = s.params := by rw [h.frame]
    rw [hstep.reads a (hp ▸ ha g (Nat.lt_succ_self _)), h.reads a fun g' hg' => ha g' (by omega)]

/-- MAIN alone takes the load from its beginning past any number of groups. -/
theorem exists_loadedBelow (hwf : s.params.wf = true) (canonical : s.ee.wf = true) (running : s.fault = none) {k : Nat}
    (hk : k ≤ 6) : ∃ t, Reaches (s.setBusy (some (.loadValidate 0))) t ∧ LoadedBelow s t k := by
  induction k with
  | zero => exact ⟨_, .refl _, rfl, canonical, fun _ hg => absurd hg (Nat.not_lt_zero _), fun _ _ => rfl⟩
  | succ k ih =>
    obtain ⟨u, hreach, hu⟩ := ih (by omega)
    have hstep : ∃ t, Reaches u t ∧ GroupStep u t ⟨k, hk⟩ := by
      have hwf' : u.params.wf = true := by rw [hu.frame]; exact hwf
      have running' : u.fault = none := by rw [hu.frame]; exact running
      have inProgress : u.busy = some (.loadValidate ⟨k, hk⟩) := by
        rw [hu.frame]
        exact congrArg some (dif_pos hk)
      by_cases valid : validSlot u ⟨k, hk⟩
      · exact groupStep_of_valid hwf' hu.canonical running' inProgress valid
      · exact groupStep_of_invalid hwf' hu.canonical running' inProgress valid
    obtain ⟨t, hreach', ht⟩ := hstep
    exact ⟨t, hreach.trans hreach', LoadedBelow.groupStep (g := ⟨k, hk⟩) hu ht⟩

/-- After the last group the load sets `cfg_loaded` (R105). -/
theorem reaches_finishStep (running : s.fault = none) (last : s.busy = some .loadFinish) : Reaches s (finishStep s) :=
  .of_step fun rest => step_of_proceed (s := s.setInputs (.proceed :: rest)) running last rfl

/-! ### The command (R105) -/

theorem decode_cfgLoadWord : decode 0xA0000000 = .ok .cfgLoad := by decide

/-- A read-and-validate sub-step moves MAIN from wherever it stood (R105). -/
theorem validateStep_setBusy (g : Fin 6) (s : State) (p : Option Progress) :
    validateStep g (s.setBusy p) = validateStep g s := by
  unfold validateStep
  congr 1

/-- `CFG_LOAD`'s own step is the read-and-validate sub-step of group 0. -/
theorem step_of_cfgLoad (es : List Event) (running : s.fault = none) (free : s.busy = none) :
    step { s with inputs := .issue .main 0xA0000000 :: es } =
      step (((s.setIssuer .main).setBusy (some (.loadValidate 0))).setInputs (.proceed :: es)) := by
  rw [step_of_proceed (s := ((s.setIssuer .main).setBusy (some (.loadValidate 0))).setInputs (.proceed :: es)) running rfl rfl,
    stepRunsTheDecodedCommand { s with inputs := .issue .main 0xA0000000 :: es } .main _ es _ running rfl (fun _ => free)
      decode_cfgLoadWord,
    exec_of_admitted ((admission_cfgLoad _).2 rfl)]
  exact (validateStep_setBusy 0 ((s.setIssuer .main).setInputs es) _).symm

/-- Runs from states with the same step are the same. -/
theorem core_run_congr (M : Host.Core) {s t : M.State} (h : M.step s = M.step t) (n : Nat) :
    M.run (n + 1) s = M.run (n + 1) t := by
  rw [Host.Core.run, Host.Core.run, h]

/-- The load takes the block from the command's own step to the state that has dealt with the six groups, `cfg_loaded` set. -/
theorem exists_loaded (hwf : s.params.wf = true) (canonical : s.ee.wf = true) (running : s.fault = none)
    (free : s.busy = none) :
    ∃ n u, LoadedBelow (s.setIssuer .main) u 6 ∧ ∀ rest, Host.Core.run Sys2Proof.core (n + 1)
      { s with inputs := .issue .main 0xA0000000 :: (alone n ++ rest) } = .next ((finishStep u).setInputs rest) := by
  obtain ⟨u, hreach, hu⟩ := exists_loadedBelow (s := s.setIssuer .main) hwf canonical running le_rfl
  have running' : u.fault = none := by rw [hu.frame]; exact running
  have last : u.busy = some .loadFinish := by rw [hu.frame]; rfl
  obtain ⟨n, hn⟩ := hreach.trans (reaches_finishStep running' last)
  cases n with
  | zero => cases congrArg State.busy (Host.Outcome.next.inj (hn []))
  | succ n => exact ⟨n, u, hu, fun rest => (core_run_congr _ (step_of_cfgLoad _ running free) n).trans (hn rest)⟩

/-- Settles O49: the six groups are dealt with one after the other, and the last step sets `cfg_loaded`. -/
theorem loadLeavesEveryGroupValid : Obligations.LoadLeavesEveryGroupValid := by
  intro s rest hinv running free
  obtain ⟨n, u, hu, hrun⟩ := exists_loaded hinv.params hinv.canonical running free
  refine ⟨n, _, hrun rest, fun g => ?_, fun a ha => hu.reads a fun g _ hg => ha ?_, ?_⟩
  · obtain ⟨hvalid, hshadow, hkept, hdefaulted⟩ := hu.loaded g g.isLt
    exact ⟨hvalid, (groupValid_iff_validSlot u g).2 hvalid, hshadow, hkept, hdefaulted⟩
  · rw [List.mem_flatMap]
    refine ⟨g, List.mem_finRange g, ?_⟩
    rw [← slotImage_storedFields, map_fst_slotImage _ _ (storedFields_length s g)]
    exact hg
  · calc (finishStep u).setInputs rest
        = { s with cfg := u.cfg, ee := u.ee, cfgLoaded := true, busy := none, inputs := rest, issuer := .main } := by
          rw [hu.frame]
          rfl
      _ = { s with cfg := u.cfg, ee := u.ee, cfgLoaded := true, inputs := rest, issuer := .main } := by rw [free]

end Sys2Proof.Machine
end
